-- ==== Sys2Proof/Word.lean ====
section
/-!
DEFINITION. Word.lean: the word types of the OTP-TRU and their plainest views
(spec/00_scope.md R8, R9; spec/20_memory.md R67, R68).
-/

namespace Sys2Proof

/-- One byte of the digest or of the message. -/
abbrev Byte := BitVec 8

/-- One 32-bit register, bus datum or command word (R7 `REG_BITS`, R80). -/
abbrev Word := BitVec 32

/-- A 64-bit value held in a `_LO`, `_HI` register pair (R68). -/
abbrev DWord := BitVec 64

/-- An offset in the 256-byte register window, `addr[7:0]` (R11, R61). -/
abbrev Offset := BitVec 8

/-- The value of a register pair, `R[X_HI] ++ R[X_LO]` (R10, R68). -/
def joinWords (hi lo : Word) : DWord := hi ++ lo

/-- Bits [63:32] of a 64-bit value (R68). -/
def highWord (v : DWord) : Word := v.extractLsb' 32 32

/-- Bits [31:0] of a 64-bit value (R68). -/
def lowWord (v : DWord) : Word := v.extractLsb' 0 32

end Sys2Proof
end

