-- ==== Sys2Proof/Syntax.lean ====
section
/-!
DEFINITION. Syntax.lean: the commands of the OTP-TRU, one constructor per row of
spec/opcode_table.json (spec/30_encoding.md R80 to R85).
-/

namespace Sys2Proof

/-- A command: a word written to CMD plays the role of an instruction (spec/00_scope.md R14). A
command word carries no operands (R81). -/
inductive Instr where
  /-- NOP, word 0x00000000 (R100). -/
  | nop
  /-- CONFIG, word 0x00000001 (R101). -/
  | config
  /-- TRUNC, word 0x00000002 (R122). -/
  | trunc
  /-- STEPS, word 0x00000003 (R140). -/
  | steps
  /-- RESET, word 0x0000000F (R105). -/
  | reset
  /-- BADCMD, every other word (R83, R85), with its two fields OP and RSV (R80). -/
  | badcmd (op : BitVec 8) (rsv : BitVec 24)
deriving DecidableEq, Repr

end Sys2Proof
end

