-- ==== Sys2Proof/WellFormed.lean ====
section
/-!
DEFINITION. WellFormed.lean: which terms of Instr stand for a command word. The five named commands
always do. BADCMD does when its word is none of theirs (spec/30_encoding.md R83, R85).
-/

namespace Sys2Proof

/-- The opcodes that R82 defines. -/
def definedOpcodes : List (BitVec 8) := [0x00, 0x01, 0x02, 0x03, 0x0F]

/-- R85: BADCMD covers the opcodes 0x04 to 0x0E and 0x10 to 0xFF with RSV = 0, and every word with
RSV ≠ 0. -/
def Instr.wellFormed : Instr → Bool
  | .nop => true
  | .config => true
  | .trunc => true
  | .steps => true
  | .reset => true
  | .badcmd op rsv => rsv != 0#24 || !definedOpcodes.contains op

end Sys2Proof
end

