-- ==== Sys2Proof/Decode.lean ====
section
/-!
DEFINITION. Decode.lean: decoding, total on every 32-bit command word (spec/30_encoding.md R83), and
after it the encoder, written from the table of R82.
-/

namespace Sys2Proof

/-- Field OP, bits [7:0] (R80). -/
def opField (w : Word) : BitVec 8 := w.extractLsb' 0 8

/-- Field RSV, bits [31:8] (R80). -/
def rsvField (w : Word) : BitVec 24 := w.extractLsb' 8 24

/-- The decoding function of R83. A word it does not define is BADCMD, never a neighbour. -/
def decode (w : Word) : Instr :=
  if rsvField w ≠ 0#24 then .badcmd (opField w) (rsvField w)
  else if opField w = 0x00#8 then .nop
  else if opField w = 0x01#8 then .config
  else if opField w = 0x02#8 then .trunc
  else if opField w = 0x03#8 then .steps
  else if opField w = 0x0F#8 then .reset
  else .badcmd (opField w) (rsvField w)

/-- The word of a command: the match column of R82, and for BADCMD its fields put back (R80). -/
def encode : Instr → Word
  | .nop => 0x00000000#32
  | .config => 0x00000001#32
  | .trunc => 0x00000002#32
  | .steps => 0x00000003#32
  | .reset => 0x0000000F#32
  | .badcmd op rsv => rsv ++ op

/-- The command that a table row's bits stand for: the one format is one 32-bit word (R80), moved as a
whole, bus data bit i to register bit i (spec/20_memory.md R66), so there is no byte order to apply.
Bits above nbits are 0. A pattern longer than the one format is no command word (log 15). -/
def decodeTableWord (nbits w : Nat) : Option Instr :=
  if nbits ≤ 32 ∧ w < 2 ^ nbits then some (decode (BitVec.ofNat 32 w)) else none

end Sys2Proof
end

