-- ==== Sys2Proof/Config.lean ====
section
/-!
DEFINITION. Config.lean: the implementation parameters of spec/00_scope.md R7, and the values the
spec leaves open, as constants without a body (no proof can see what they are).
-/

namespace Sys2Proof.Config

/-- `DIGITS_MIN` (R7). -/
def digitsMin : Nat := 6

/-- `DIGITS_MAX` (R7). -/
def digitsMax : Nat := 9

/-- `DIGEST_MIN_BYTES` (R7). -/
def digestMinBytes : Nat := 20

/-- `DIGEST_MAX_BYTES` (R7), the size of the digest buffer. -/
def digestMaxBytes : Nat := 64

/-- `MSG_BYTES` (R7). -/
def msgBytes : Nat := 8

/-- `WINDOW_BYTES` (R7). -/
def windowBytes : Nat := 256

/-- The constant value of the ID register (spec/10_state.md R22): "OT", version 1.0. -/
def idValue : Word := 0x4F540100#32

/-- `UNIT_BASE` (R7, R71), OPEN: where the platform places the window. No rule depends on it (log 13). -/
opaque unitBase : Nat

/-- The host's address of an offset of the window (R11: `addr` is the offset from `UNIT_BASE`). -/
def hostAddress (a : Offset) : Nat := unitBase + a.toNat

/-- The part of `CMD_LATENCY` that is open (R7, R203): a number of cycles for each opcode. -/
opaque latencyBeyondOne : BitVec 8 → Nat

/-- `CMD_LATENCY` (R7, R203), OPEN: at least one cycle, constant for a given opcode. No rule of the
model depends on its value (R203; log 6). -/
def cmdLatency (op : BitVec 8) : Nat := latencyBeyondOne op + 1

/-- A free value: what stands for digest byte `D[i]` where the buffer has no such byte. Only a state
in which an unchecked configuration is marked valid asks for it (R126; log 11). -/
opaque absentDigestByte : Int → Byte

/-- A free value: what stands for the quotient of the elapsed seconds by TSTEP = 0. Only a state in
which an unchecked configuration is marked valid asks for it (R141; log 12). -/
opaque quotientByZero : Int → Int

end Sys2Proof.Config
end

