-- ==== Sys2Proof/Machine/State.lean ====
section
/-!
DEFINITION. Machine/State.lean: the state of the OTP-TRU (spec/10_state.md), of its bus port and pins
(spec/20_memory.md R61) and of the schedule (spec/70_reset_and_hazards.md R196), as plain data; what
can stop a step; and the state right after reset.
-/

namespace Sys2Proof.Machine

/-- The two agents of spec/00_scope.md R15. -/
inductive Agent where
  /-- The host, with the pins that move from outside. -/
  | host
  /-- The unit sequencer. -/
  | sequencer
deriving DecidableEq, Repr

/-- The kind of a bus transaction (R61). -/
inductive BusKind where
  | read
  | write
deriving DecidableEq, Repr

/-- The size of a bus transaction in bytes, one of 1, 2 and 4 (R61). -/
inductive BusSize where
  | byte
  | half
  | word
deriving DecidableEq, Repr

/-- A bus transaction as it is given to the unit (R61). A read takes no notice of wdata. -/
structure Txn where
  kind  : BusKind
  addr  : Offset
  size  : BusSize
  wdata : Word
deriving DecidableEq, Repr

/-- The answer of a transaction (R61). rdata is none in the answer of a legal write, for which the
spec states no read data (log 7). -/
structure BusAnswer where
  rdata : Option Word
  err   : Bool
deriving DecidableEq, Repr

/-- What reaches the unit from outside, one entry for each thing that happens there (R61, R73, R86). -/
inductive Input where
  /-- The host performs one transaction (R60). -/
  | bus (t : Txn)
  /-- The host's WAIT: read STATUS until the value read has BUSY = 0 (R86; log 16). -/
  | wait
  /-- One cycle of clk passes (R61; log 5). -/
  | clk
  /-- The pin rst_n takes this level (R61, R190; log 9). -/
  | rst (level : Bool)
deriving DecidableEq, Repr

/-- Everything the spec gives the machine. Reserved bits are not storage, so a register is held at the
width of its defined bits (R48; log 4). -/
structure State where
  /-- PEND (R47): the word of the accepted command. STATUS.BUSY is its presence (R25; log 3). -/
  pend      : Option Word
  /-- The cycle count toward CMD_LATENCY (R47). No rule reads it (log 5). -/
  cycles    : Nat
  /-- STATUS.CFG_VALID (R26). -/
  cfgValid  : Bool
  /-- STATUS.DONE (R27). -/
  done      : Bool
  /-- STATUS.ERR (R28). -/
  err       : Bool
  /-- STATUS.ERRCODE (R29). -/
  errcode   : BitVec 4
  /-- STATUS.OVR (R30). -/
  ovr       : Bool
  /-- CFG.DIGITS (R31). -/
  digits    : BitVec 4
  /-- CFG.HALG (R32). -/
  halg      : BitVec 2
  /-- DLEN (R34). -/
  dlen      : BitVec 7
  /-- TSTEP (R35). -/
  tstep     : Word
  /-- BASE_LO (R36). -/
  baseLo    : Word
  /-- BASE_HI (R36). -/
  baseHi    : Word
  /-- NOW_LO (R37). -/
  nowLo     : Word
  /-- NOW_HI (R37). -/
  nowHi     : Word
  /-- COUNTER_LO (R38). -/
  counterLo : Word
  /-- COUNTER_HI (R38). -/
  counterHi : Word
  /-- OFFSET (R43). -/
  offset    : BitVec 4
  /-- BINCODE (R44). -/
  bincode   : BitVec 31
  /-- CODE (R45). -/
  code      : BitVec 30
  /-- DIGEST_0 to DIGEST_15 (R40). -/
  digest    : Vector Word 16
  /-- The level of the pin rst_n (R61, R190). -/
  rstN      : Bool
  /-- The model's own: what will reach the unit from outside, in order (log 2). -/
  inputs    : List Input
  /-- The model's own, a free value: who moves at each point where both agents could (R196; log 1). -/
  turns     : List Agent
  /-- The model's own: the answers given on the bus, newest first (log 7). -/
  answers   : List BusAnswer
deriving DecidableEq, Repr

/-- What makes the machine stop with a fault: nothing. Command errors and bus errors are reported and
the unit goes on (spec/60_exceptions.md R161, R165; R202 "does not fault the unit"; log 14). -/
inductive Fault where
deriving DecidableEq, Repr

/-- Why a step may have no meaning. -/
inductive Refusal where
  /-- An arm of exec without a meaning yet raises it. Safe: nothing is claimed of the instruction. -/
  | notModelled (mnemonic : String)
  /-- A bus transaction while rst_n = 0 raises it: "The model admits no bus transaction while
  rst_n = 0" (R190; spec/93 U12). Safe: nothing is claimed of what the platform answers (log 8). -/
  | busDuringReset
deriving DecidableEq, Repr

/-- What a step or a meaning answers. -/
abbrev Result := Host.Outcome State Fault Refusal

/-- The machine right after reset (R50, R190): every register at the reset value of R20, PEND empty,
rst_n released; and nothing queued from outside (log 21). -/
def State.reset : State where
  pend      := none
  cycles    := 0
  cfgValid  := false
  done      := false
  err       := false
  errcode   := 0
  ovr       := false
  digits    := 6
  halg      := 0
  dlen      := 20
  tstep     := 30
  baseLo    := 0
  baseHi    := 0
  nowLo     := 0
  nowHi     := 0
  counterLo := 0
  counterHi := 0
  offset    := 0
  bincode   := 0
  code      := 0
  digest    := Vector.replicate 16 0
  rstN      := true
  inputs    := []
  turns     := []
  answers   := []

end Sys2Proof.Machine
end

