-- ==== Sys2Proof/Machine/Flags.lean ====
section
/-!
DEFINITION. Machine/Flags.lean: the STATUS register, the only flags of the unit (spec/10_state.md R24
to R30, R49), and the two output ports that follow registers (spec/20_memory.md R61, R78).
-/

namespace Sys2Proof.Machine

/-- One bit as a number. -/
def flagBit (b : Bool) : BitVec 1 := BitVec.ofBool b

/-- STATUS.BUSY (R25): a command is accepted and not completed, that is, PEND holds one (R47, R196). -/
def State.busy (s : State) : Bool := s.pend.isSome

/-- The value a read of STATUS returns: the layout of R24, reserved bits [31:9] zero. -/
def State.statusWord (s : State) : Word :=
  (0#23 ++ flagBit s.ovr ++ s.errcode ++ flagBit s.err ++ flagBit s.done ++ flagBit s.cfgValid
    ++ flagBit s.busy : BitVec (23 + 1 + 4 + 1 + 1 + 1 + 1))

/-- A write to STATUS: bit 8 set clears OVR, every other bit is ignored (R24). -/
def State.writeStatus (v : Word) (s : State) : State :=
  { s with ovr := s.ovr && !v.getLsbD 8 }

/-- What a dropped write leaves: OVR set, nothing else (R30, R65). -/
def State.dropWrite (s : State) : State := { s with ovr := true }

/-- The output `busy_out`, equal to STATUS.BUSY (R61, R168). -/
def State.busyOut (s : State) : Bool := s.busy

end Sys2Proof.Machine
end

