-- ==== Sys2Proof/Machine/Operands.lean ====
section
/-!
DEFINITION. Machine/Operands.lean: the operand forms of the unit. A command word carries none
(spec/30_encoding.md R81): every operand is a register, a register pair, the effective digest length,
a byte of the digest or a byte of the message.
-/

namespace Sys2Proof.Machine

/-- BASE, `R[BASE_HI] ++ R[BASE_LO]` (R36, R68). -/
def State.base (s : State) : DWord := joinWords s.baseHi s.baseLo

/-- NOW, `R[NOW_HI] ++ R[NOW_LO]` (R37, R68). -/
def State.now (s : State) : DWord := joinWords s.nowHi s.nowLo

/-- COUNTER, `R[COUNTER_HI] ++ R[COUNTER_LO]` (R38, R68). -/
def State.counter (s : State) : DWord := joinWords s.counterHi s.counterLo

/-- A write of both halves of COUNTER (R68, R143). -/
def State.setCounter (v : DWord) (s : State) : State :=
  { s with counterHi := highWord v, counterLo := lowWord v }

/-- DLEN_EFF, the effective digest length L, combinational (R32, R42). -/
def State.dlenEff (s : State) : BitVec 7 :=
  if s.halg = 0#2 then 20#7
  else if s.halg = 1#2 then 32#7
  else if s.halg = 2#2 then 64#7
  else s.dlen

/-- Byte `j` of a word in the big-endian packing of R67: byte 0 is bits [31:24]. -/
def wordByte (w : Word) (j : Nat) : Byte := w.extractLsb' (24 - 8 * j) 8

/-- `D[i]`, byte `i` of the digest buffer (R40). -/
def State.bufferByte (s : State) (i : Fin 64) : Byte :=
  wordByte (s.digest[i.val / 4]'(by omega)) (i.val % 4)

/-- `D[i]` for any index: the buffer's byte, and a free value where the buffer has none (log 11). -/
def State.digestByte (s : State) (i : Int) : Byte :=
  if h : 0 ≤ i ∧ i < 64 then s.bufferByte ⟨i.toNat, by omega⟩ else Config.absentDigestByte i

/-- The last byte of the digest, `D[L-1]` with `L = DLEN_EFF`, not `D[63]` (R41, R123). -/
def State.lastDigestByte (s : State) : Byte := s.digestByte ((s.dlenEff.toNat : Int) - 1)

/-- `M[i]`, byte `i` of the 8-byte message, `R[COUNTER][63-8i : 56-8i]` (R120). -/
def State.messageByte (s : State) (i : Fin 8) : Byte := s.counter.extractLsb' (56 - 8 * i.val) 8

/-- MSG0, message bytes 0 to 3 packed big-endian (R39, R67). -/
def State.msg0 (s : State) : Word :=
  s.messageByte 0 ++ s.messageByte 1 ++ s.messageByte 2 ++ s.messageByte 3

/-- MSG1, message bytes 4 to 7 packed big-endian (R39, R67). -/
def State.msg1 (s : State) : Word :=
  s.messageByte 4 ++ s.messageByte 5 ++ s.messageByte 6 ++ s.messageByte 7

/-- The output port `msg_out`, byte `M[i]` on bits [63-8i : 56-8i] (R78). -/
def State.msgOut (s : State) : DWord := s.msg0 ++ s.msg1

end Sys2Proof.Machine
end

