-- ==== Sys2Proof/Machine/Ops.lean ====
section
/-!
DEFINITION. Machine/Ops.lean: the operations that meanings and transactions share. How a command is
accepted, how it ends well, how it ends with an error (the unit's one exception entry,
spec/60_exceptions.md R165), the reset of the unit, and the register map of the window
(spec/10_state.md R20).
-/

namespace Sys2Proof.Machine

/-- The command errors of R160. -/
inductive CmdError where
  | digits
  | dlen
  | tstep
  | noCfg
  | negTime
  | badCmd
deriving DecidableEq, Repr

/-- The codes written to STATUS.ERRCODE (R160). -/
def CmdError.errcode : CmdError → BitVec 4
  | .digits => 1
  | .dlen => 2
  | .tstep => 3
  | .noCfg => 4
  | .negTime => 5
  | .badCmd => 6

/-- Acceptance of a command word (R195). The count of cycles starts (R47; log 5). -/
def State.accept (w : Word) (s : State) : State :=
  { s with pend := some w, cycles := 0, done := false, err := false, errcode := 0 }

/-- `complete()` (R12): DONE set and BUSY cleared, which empties PEND (R196). -/
def State.complete (s : State) : State :=
  { s with done := true, pend := none }

/-- `raise CmdError(code)` (R12, R165): ERR, ERRCODE and BUSY are written, nothing is saved and control
goes nowhere. There is no return from it: the next acceptance clears ERR and ERRCODE (R166). -/
def State.raiseCmdError (e : CmdError) (s : State) : State :=
  { s with err := true, errcode := e.errcode, pend := none }

/-- The reset of the unit, by rst_n (R190) or by RESET (R105, R191): every register takes its reset
value and PEND is discarded. The pin and what is outside the unit stay as they are (log 18). -/
def State.resetUnit (s : State) : State :=
  { State.reset with rstN := s.rstN, inputs := s.inputs, turns := s.turns, answers := s.answers }

/-- One clk cycle: it advances the count while a command is pending, and nothing else (R47, R194). -/
def State.tick (s : State) : State :=
  { s with cycles := if s.busy then s.cycles + 1 else s.cycles }

/-- Whether the pending command's CMD_LATENCY has passed (R203). No step reads it (log 6). -/
def State.latencyPassed (s : State) : Bool :=
  match s.pend with
  | some w => decide (Config.cmdLatency (opField w) ≤ s.cycles)
  | none => false

/-- The registers of the window (R20). -/
inductive Reg where
  | id
  | cmd
  | status
  | cfg
  | dlen
  | tstep
  | baseLo
  | baseHi
  | nowLo
  | nowHi
  | counterLo
  | counterHi
  | msg0
  | msg1
  | offset
  | bincode
  | code
  | dlenEff
  | digest (k : Fin 16)
deriving DecidableEq, Repr

/-- The access column of R20. -/
inductive Access where
  /-- RO: a write is ignored with no error. -/
  | readOnly
  /-- STATUS: RO, bit 8 W1C. -/
  | writeOneClears
  /-- WO: a read returns 0. -/
  | writeOnly
  /-- RW. -/
  | readWrite
deriving DecidableEq, Repr

/-- The access of each register (R20). -/
def Reg.access : Reg → Access
  | .id => .readOnly
  | .cmd => .writeOnly
  | .status => .writeOneClears
  | .cfg => .readWrite
  | .dlen => .readWrite
  | .tstep => .readWrite
  | .baseLo => .readWrite
  | .baseHi => .readWrite
  | .nowLo => .readWrite
  | .nowHi => .readWrite
  | .counterLo => .readWrite
  | .counterHi => .readWrite
  | .msg0 => .readOnly
  | .msg1 => .readOnly
  | .offset => .readOnly
  | .bincode => .readOnly
  | .code => .readOnly
  | .dlenEff => .readOnly
  | .digest _ => .readWrite

/-- The offset of each register (R20, R40). -/
def Reg.addr : Reg → Offset
  | .id => 0x00
  | .cmd => 0x04
  | .status => 0x08
  | .cfg => 0x0C
  | .dlen => 0x10
  | .tstep => 0x14
  | .baseLo => 0x18
  | .baseHi => 0x1C
  | .nowLo => 0x20
  | .nowHi => 0x24
  | .counterLo => 0x28
  | .counterHi => 0x2C
  | .msg0 => 0x30
  | .msg1 => 0x34
  | .offset => 0x38
  | .bincode => 0x3C
  | .code => 0x40
  | .dlenEff => 0x44
  | .digest k => BitVec.ofNat 8 (0x80 + 4 * k.val)

/-- The registers below the digest buffer, in the order of R20. -/
def namedRegs : List Reg :=
  [.id, .cmd, .status, .cfg, .dlen, .tstep, .baseLo, .baseHi, .nowLo, .nowHi, .counterLo, .counterHi,
    .msg0, .msg1, .offset, .bincode, .code, .dlenEff]

/-- The register at an offset of the window, none where the offset is reserved (R20, R48). -/
def regAt (a : Offset) : Option Reg :=
  if a.toNat % 4 ≠ 0 then none
  else if a.toNat < 0x80 then namedRegs[a.toNat / 4]?
  else if a.toNat < 0xC0 then some (.digest (Fin.ofNat 16 ((a.toNat - 0x80) / 4)))
  else none

/-- CFG as it is read, reserved bits [31:6] zero (R31, R32). -/
def State.cfgWord (s : State) : Word := (s.halg ++ s.digits : BitVec (2 + 4)).setWidth 32

/-- The current value of a register, reserved bits 0 (R63). -/
def State.readReg (s : State) : Reg → Word
  | .id => Config.idValue
  | .cmd => 0
  | .status => s.statusWord
  | .cfg => s.cfgWord
  | .dlen => s.dlen.setWidth 32
  | .tstep => s.tstep
  | .baseLo => s.baseLo
  | .baseHi => s.baseHi
  | .nowLo => s.nowLo
  | .nowHi => s.nowHi
  | .counterLo => s.counterLo
  | .counterHi => s.counterHi
  | .msg0 => s.msg0
  | .msg1 => s.msg1
  | .offset => s.offset.setWidth 32
  | .bincode => s.bincode.setWidth 32
  | .code => s.code.setWidth 32
  | .dlenEff => s.dlenEff.setWidth 32
  | .digest k => s.digest[k]

/-- What a legal read of an offset returns (R63): the register's value, and 0 where reserved (R48). -/
def State.readOffset (s : State) (a : Offset) : Word :=
  match regAt a with
  | some r => s.readReg r
  | none => 0

/-- What an accepted write of an operand register stores (R33): the defined bits, and for a
configuration register CFG_VALID is cleared. The other registers store nothing here (R64). -/
def State.storeReg (r : Reg) (v : Word) (s : State) : State :=
  match r with
  | .cfg => { s with digits := v.extractLsb' 0 4, halg := v.extractLsb' 4 2, cfgValid := false }
  | .dlen => { s with dlen := v.extractLsb' 0 7, cfgValid := false }
  | .tstep => { s with tstep := v, cfgValid := false }
  | .baseLo => { s with baseLo := v, cfgValid := false }
  | .baseHi => { s with baseHi := v, cfgValid := false }
  | .nowLo => { s with nowLo := v }
  | .nowHi => { s with nowHi := v }
  | .counterLo => { s with counterLo := v }
  | .counterHi => { s with counterHi := v }
  | .digest k => { s with digest := s.digest.set k v }
  | .id => s
  | .cmd => s
  | .status => s
  | .msg0 => s
  | .msg1 => s
  | .offset => s
  | .bincode => s
  | .code => s
  | .dlenEff => s

end Sys2Proof.Machine
end

