-- ==== Sys2Proof/Machine/Configure.lean ====
section
/-!
DEFINITION. Machine/Configure.lean: the meaning of CONFIG (spec/40_control_config.md R101 to R104).
-/

namespace Sys2Proof.Machine

/-- The configuration check (R102): the first failing condition in the order of the rule. DLEN is
looked at only for a custom algorithm, HALG = 3. -/
def cfgCheck (d : BitVec 4) (h : BitVec 2) (dl : BitVec 7) (ts : Word) : Option CmdError :=
  if ¬(Config.digitsMin ≤ d.toNat ∧ d.toNat ≤ Config.digitsMax) then some .digits
  else if h = 3#2 ∧ ¬(Config.digestMinBytes ≤ dl.toNat ∧ dl.toNat ≤ Config.digestMaxBytes) then
    some .dlen
  else if ts.toNat = 0 then some .tstep
  else none

/-- CONFIG (R101): CFG_VALID set and the command complete (R103), or CFG_VALID cleared and the error
raised (R104). -/
def execConfig (s : State) : Result :=
  match cfgCheck s.digits s.halg s.dlen s.tstep with
  | some e => .next (State.raiseCmdError e { s with cfgValid := false })
  | none => .next (State.complete { s with cfgValid := true })

end Sys2Proof.Machine
end

