-- ==== Sys2Proof/Machine/Control.lean ====
section
/-!
DEFINITION. Machine/Control.lean: the meanings of NOP and RESET (spec/40_control_config.md R100, R105)
and of an illegal word (spec/30_encoding.md R85).
-/

namespace Sys2Proof.Machine

/-- NOP (R100): `complete()`. -/
def execNop (s : State) : Result := .next s.complete

/-- RESET (R105): performed at the CMD write itself. DONE is not set. -/
def execReset (s : State) : Result := .next s.resetUnit

/-- BADCMD (R85): `raise CmdError(E_BADCMD)`, whatever the fields hold, and nothing else changes. -/
def execBadcmd (_op : BitVec 8) (_rsv : BitVec 24) (s : State) : Result :=
  .next (s.raiseCmdError .badCmd)

end Sys2Proof.Machine
end

