-- ==== Sys2Proof/Machine/Hotp.lean ====
section
/-!
DEFINITION. Machine/Hotp.lean: the meaning of TRUNC (spec/41_hotp_truncation.md R122 to R129).
-/

namespace Sys2Proof.Machine

/-- The truncation offset, the low nibble of the last digest byte (R123). -/
def State.truncOffset (s : State) : Nat := (s.lastDigestByte &&& 0x0F#8).toNat

/-- binCode (R122, R123): the four bytes at the offset, the top bit of the first cleared, read as a
big-endian unsigned integer. -/
def State.binCode (s : State) : Nat :=
  let off : Int := s.truncOffset
  let b0 := s.digestByte off &&& 0x7F#8
  (b0 ++ s.digestByte (off + 1) ++ s.digestByte (off + 2) ++ s.digestByte (off + 3)).toNat

/-- TRUNC (R122): E_NOCFG without a valid configuration (R124), else the three result registers and
`complete()` in one step (R125). The reduction is one remainder (spec/90_conflicts.md C1). -/
def execTrunc (s : State) : Result :=
  if s.cfgValid then
    .next (State.complete
      { s with
        offset := BitVec.ofNat 4 s.truncOffset
        bincode := BitVec.ofNat 31 s.binCode
        code := BitVec.ofNat 30 (s.binCode % 10 ^ s.digits.toNat) })
  else .next (s.raiseCmdError .noCfg)

end Sys2Proof.Machine
end

