-- ==== Sys2Proof/Machine/Totp.lean ====
section
/-!
DEFINITION. Machine/Totp.lean: the meaning of STEPS (spec/42_totp_steps.md R140 to R145).
-/

namespace Sys2Proof.Machine

/-- The elapsed seconds, exact (R140, R142): `sint64(R[NOW]) - sint64(R[BASE])`. -/
def State.elapsed (s : State) : Int := s.now.toInt - s.base.toInt

/-- `e div t` of R9, floor division, for `t > 0`. For `t = 0` a free value stands, which no valid
configuration asks for (R141; log 12). -/
def floorDiv (e : Int) (t : Nat) : Int :=
  if t = 0 then Config.quotientByZero e else e.fdiv t

/-- STEPS (R140): E_NOCFG (R141), then E_NEGTIME (R142), else COUNTER and `complete()` (R143). -/
def execSteps (s : State) : Result :=
  if s.cfgValid then
    if floorDiv s.elapsed s.tstep.toNat < 0 then .next (s.raiseCmdError .negTime)
    else .next (s.setCounter (BitVec.ofInt 64 (floorDiv s.elapsed s.tstep.toNat))).complete
  else .next (s.raiseCmdError .noCfg)

end Sys2Proof.Machine
end

