-- ==== Sys2Proof/Machine/Dispatch.lean ====
section
/-!
DEFINITION. Machine/Dispatch.lean: one arm per command, each one call of its meaning.
-/

namespace Sys2Proof.Machine

def exec (i : Instr) (s : State) : Host.Outcome State Fault Refusal :=
  match i with
  | .nop => Sys2Proof.Machine.execNop s
  | .config => Sys2Proof.Machine.execConfig s
  | .trunc => Sys2Proof.Machine.execTrunc s
  | .steps => Sys2Proof.Machine.execSteps s
  | .reset => Sys2Proof.Machine.execReset s
  | .badcmd op rsv => Sys2Proof.Machine.execBadcmd op rsv s

end Sys2Proof.Machine
end

