-- ==== Sys2Proof/Machine/Bus.lean ====
section
/-!
DEFINITION. Machine/Bus.lean: the bus transactions of the host (spec/20_memory.md R60 to R70) and what
else reaches the unit from outside (the WAIT loop of spec/30_encoding.md R86, clk and rst_n of R61).
-/

namespace Sys2Proof.Machine

/-- A result with one more thing done to the next state. -/
def Result.andThen (r : Result) (f : State → State) : Result :=
  match r with
  | .next s => .next (f s)
  | .fault q => .fault q
  | .refused q => .refused q

/-- A transaction is legal only if its size is 4 and `addr[1:0] = 0` (R62). -/
def Txn.legal (t : Txn) : Bool := t.size == .word && t.addr.extractLsb' 0 2 == 0#2

/-- The answer goes out on the bus (R61). -/
def State.answer (a : BusAnswer) (s : State) : State := { s with answers := a :: s.answers }

/-- The answer of a legal read. -/
def readAnswer (v : Word) : BusAnswer := { rdata := some v, err := false }

/-- The answer of a legal write, accepted, ignored or dropped (R62, R65; log 7). -/
def writeAnswer : BusAnswer := { rdata := none, err := false }

/-- `raise BusError`: err = 1 and rdata = 0 (R12, R62). -/
def busErrorAnswer : BusAnswer := { rdata := some 0, err := true }

/-- A legal write of CMD. The RESET word is performed in this step whether the unit is busy or not
(R65, R84, R191). Another word is dropped while busy (R65) and else accepted (R195). -/
def cmdWrite (v : Word) (s : State) : Result :=
  if v = encode .reset then exec .reset s
  else if s.busy then .next s.dropWrite
  else .next (s.accept v)

/-- A legal write (R64, R65, R48). -/
def legalWrite (a : Offset) (v : Word) (s : State) : Result :=
  match regAt a with
  | none => .next s
  | some r =>
    match r.access with
    | .readOnly => .next s
    | .writeOneClears => .next (s.writeStatus v)
    | .writeOnly => cmdWrite v s
    | .readWrite => if s.busy then .next s.dropWrite else .next (s.storeReg r v)

/-- One transaction of the host, with its answer (R60 to R65). While rst_n = 0 none is admitted (R190). -/
def busStep (t : Txn) (s : State) : Result :=
  if s.rstN = false then .refused .busDuringReset
  else if t.legal = false then .next (s.answer busErrorAnswer)
  else
    match t.kind with
    | .read => .next (s.answer (readAnswer (s.readOffset t.addr)))
    | .write => (legalWrite t.addr t.wdata s).andThen (State.answer writeAnswer)

/-- The host's read of STATUS. -/
def statusRead : Txn := { kind := .read, addr := Reg.status.addr, size := .word, wdata := 0 }

/-- One round of WAIT (R86): a read of STATUS, and WAIT stays the host's next act while the value read
has BUSY = 1. -/
def waitStep (s : State) : Result :=
  (busStep statusRead s).andThen fun t =>
    if s.statusWord.getLsbD 0 then { t with inputs := .wait :: t.inputs } else t

/-- The pin rst_n takes a level: low resets the unit and holds it in reset (R190; log 9). -/
def State.setRstN (level : Bool) (s : State) : State :=
  if level then { s with rstN := true } else { s.resetUnit with rstN := false }

/-- What one input does. -/
def performInput (i : Input) (s : State) : Result :=
  match i with
  | .bus t => busStep t s
  | .wait => waitStep s
  | .clk => .next s.tick
  | .rst level => .next (s.setRstN level)

/-- The host's move: the first of the inputs is taken off and performed (R73). -/
def hostStep (s : State) : Result :=
  match s.inputs with
  | [] => .next s
  | i :: rest => performInput i { s with inputs := rest }

end Sys2Proof.Machine
end

