-- ==== Sys2Proof/Machine/Schedule.lean ====
section
/-!
DEFINITION. Machine/Schedule.lean: which agent moves (spec/70_reset_and_hazards.md R196, R205;
spec/20_memory.md R73), the sequencer's move, and how a command is placed as the next one to run.
-/

namespace Sys2Proof.Machine

/-- The sequencer has a step exactly while a command is pending (R196), out of reset (R190). -/
def State.sequencerEnabled (s : State) : Bool := s.rstN && s.busy

/-- Both agents could move, so the next entry of `turns` says which one does (log 1). -/
def State.contested (s : State) : Bool := s.sequencerEnabled && !s.inputs.isEmpty

/-- Who moves: where both could, the next of `turns`, and when those are used up the sequencer, so
that every accepted command completes (R205; log 1). None where neither can (R194; log 10). -/
def State.mover (s : State) : Option Agent :=
  if s.contested then some (s.turns.headD .sequencer)
  else if s.sequencerEnabled then some .sequencer
  else if s.inputs.isEmpty then none
  else some .host

/-- The choice is used up. -/
def State.spendTurn (s : State) : State :=
  { s with turns := if s.contested then s.turns.tail else s.turns }

/-- The sequencer's move: the completion of `decode(PEND)`, all of it in this one step (R196). -/
def sequencerStep (s : State) : Result :=
  match s.pend with
  | some w => exec (decode w) s
  | none => .next s

/-- The host's write of a word to CMD. -/
def cmdTxn (w : Word) : Txn := { kind := .write, addr := Reg.cmd.addr, size := .word, wdata := w }

/-- The state with command word `w` placed so that the next step runs it: RESET runs in the step of
the CMD write that carries it (R191), any other command in the sequencer's step after its acceptance
(R195, R196; log 2). -/
def State.loadCommand (w : Word) (s : State) : State :=
  if w = encode .reset then
    { s with
      rstN := true
      inputs := .bus (cmdTxn w) :: s.inputs
      turns := if s.busy then .host :: s.turns else s.turns }
  else
    { s.accept w with
      rstN := true
      turns := if s.inputs.isEmpty then s.turns else .sequencer :: s.turns }

end Sys2Proof.Machine
end

