-- ==== Sys2Proof/Machine/Step.lean ====
section
/-!
DEFINITION. Machine/Step.lean: one step of the machine, one agent's move (spec/00_scope.md R15).
-/

namespace Sys2Proof.Machine

/-- One step: the agent whose turn it is moves. Where neither can move, nothing changes (R194, R174). -/
def step (s : State) : Host.Outcome State Fault Refusal :=
  match s.mover with
  | some .sequencer => sequencerStep s.spendTurn
  | some .host => hostStep s.spendTurn
  | none => .next s

/-- `s` with the command whose bits are `w` placed where the next step takes it from (log 2, log 15). -/
def State.withFetchWord (s : State) (_nbits w : Nat) : State := s.loadCommand (BitVec.ofNat 32 w)

end Sys2Proof.Machine
end

