-- ==== Sys2Proof/Machine/HostProgram.lean ====
section
/-!
DEFINITION. Machine/HostProgram.lean: the host notation of spec/30_encoding.md R86 and the expansions
of its pseudo-instructions, R87, as lists of inputs.
-/

namespace Sys2Proof.Machine

/-- A register that is one half of a 64-bit pair (R68, R87). -/
inductive RegPair where
  | base
  | now
  | counter
deriving DecidableEq, Repr

/-- `X_LO`. -/
def RegPair.lo : RegPair → Reg
  | .base => .baseLo
  | .now => .nowLo
  | .counter => .counterLo

/-- `X_HI`. -/
def RegPair.hi : RegPair → Reg
  | .base => .baseHi
  | .now => .nowHi
  | .counter => .counterHi

/-- `WR <reg>, <imm32>` (R86). -/
def wr (r : Reg) (v : Word) : Input :=
  .bus { kind := .write, addr := r.addr, size := .word, wdata := v }

/-- `RD <reg>` (R86). -/
def rd (r : Reg) : Input := .bus { kind := .read, addr := r.addr, size := .word, wdata := 0 }

/-- The pseudo-instruction of a command: a write of its word to CMD (R87). -/
def issue (i : Instr) : Input := wr .cmd (encode i)

/-- `RUN <cmd>` (R87). -/
def runCmd (i : Instr) : List Input := [issue i, .wait]

/-- `SETCFG d, h` (R87). -/
def setCfg (d : BitVec 4) (h : BitVec 2) : Input :=
  wr .cfg ((h.setWidth 32 <<< 4) ||| d.setWidth 32)

/-- `WR64 X, v`, a negative `v` in 64-bit two's complement (R87). -/
def wr64 (x : RegPair) (v : Int) : List Input :=
  [wr x.lo (lowWord (BitVec.ofInt 64 v)), wr x.hi (highWord (BitVec.ofInt 64 v))]

/-- `RD64 X` (R87). -/
def rd64 (x : RegPair) : List Input := [rd x.lo, rd x.hi]

/-- Word `k` of a byte sequence packed big-endian, bytes past its end 0x00 (R67, R87). -/
def packedWord (bytes : List Byte) (k : Nat) : Word :=
  bytes.getD (4 * k) 0 ++ bytes.getD (4 * k + 1) 0 ++ bytes.getD (4 * k + 2) 0
    ++ bytes.getD (4 * k + 3) 0

/-- `LDDIG b_0 .. b_(n-1)`, which requires `n ≤ 64` (R87). -/
def ldDig (bytes : List Byte) : Option (List Input) :=
  if bytes.length ≤ 64 then
    some ((List.range ((bytes.length + 3) / 4)).map fun k =>
      wr (.digest (Fin.ofNat 16 k)) (packedWord bytes k))
  else none

/-- The host sequence of `build_config(digits)` (spec/40_control_config.md R106). -/
def buildConfig (d : BitVec 4) : List Input :=
  [setCfg d 0, wr .tstep 30] ++ wr64 .base 0 ++ runCmd .config

/-- The host sequence of the fully parameterised constructor: the same sequence with CFG.HALG, DLEN, TSTEP
and BASE set explicitly (R106). -/
def buildConfigWith (d : BitVec 4) (h : BitVec 2) (dl : BitVec 7) (ts : Word) (base : Int) :
    List Input :=
  [setCfg d h, wr .dlen (dl.setWidth 32), wr .tstep ts] ++ wr64 .base base ++ runCmd .config

/-- `build_config(digits)` after a reset: the three writes after SETCFG left out (R106). -/
def buildConfigAfterReset (d : BitVec 4) : List Input := setCfg d 0 :: runCmd .config

/-- The host sequence of `totp` up to the HMAC: steps 1 and 2 of spec/42_totp_steps.md R146, and reads of
MSG0 and MSG1 for its step 3, which the HMAC outside the unit computes. DESIGN CHOICE: how the message
reaches the HMAC is the platform's, by `msg_out` or by these reads (spec/20_memory.md R78, 93 U21), and
R146 lists no reads; the model takes the reads (log 22). -/
def totpSteps (now : Int) : List Input := wr64 .now now ++ runCmd .steps ++ [rd .msg0, rd .msg1]

/-- The rest of it, steps 4 to 6 of R146, with the digest computed outside. -/
def totpCode (digest : List Byte) : Option (List Input) :=
  (ldDig digest).map fun load => load ++ runCmd .trunc ++ [rd .code]

end Sys2Proof.Machine
end

