-- ==== Sys2Proof/Safety.lean ====
section
/-!
DEFINITION. Safety.lean: the terms in which claims about the unit are made. What the host sees of a
state through the window, the reset column of the register map, and what holds in every state that a
run reaches (each part with the rule that says it).
-/

namespace Sys2Proof.Machine

/-- The reset value column of R20; an offset not listed is reserved and reads 0 (R48). -/
def resetColumn : List (Offset × Word) :=
  [(0x00, 0x4F540100), (0x0C, 0x00000006), (0x10, 0x00000014), (0x14, 0x0000001E),
    (0x44, 0x00000014)]

/-- What a read of an offset returns right after reset (R20, R50). -/
def resetValueAt (a : Offset) : Word := (resetColumn.lookup a).getD 0

/-- Every offset of the window outside the list reads in `t` as it reads in `s`. -/
def readsAsBefore (changed : List Reg) (s t : State) : Prop :=
  ∀ a : Offset, (∀ r ∈ changed, Reg.addr r ≠ a) → t.readOffset a = s.readOffset a

/-- The STATUS flags other than CFG_VALID are as before. -/
def sameFlagsButCfgValid (s t : State) : Prop :=
  t.busy = s.busy ∧ t.done = s.done ∧ t.err = s.err ∧ t.errcode = s.errcode ∧ t.ovr = s.ovr

/-- Byte `D[i]` as a number, from the word a read of DIGEST_(i/4) returns (R40). -/
def State.windowByte (s : State) (i : Nat) : Nat :=
  (s.readReg (.digest (Fin.ofNat 16 (i / 4)))).toNat / 256 ^ (3 - i % 4) % 256

/-- The effective digest length as a number, L of R41. -/
def State.digestLen (s : State) : Nat := s.dlenEff.toNat

/-- A configuration that CONFIG accepts (R102). -/
abbrev State.configLegal (s : State) : Prop :=
  6 ≤ s.digits.toNat ∧ s.digits.toNat ≤ 9
    ∧ (s.halg = 3#2 → 20 ≤ s.dlen.toNat ∧ s.dlen.toNat ≤ 64) ∧ s.tstep ≠ 0#32

/-- DONE and ERR are never both 1 (R27), neither is set while a command is pending (R195), ERRCODE is 0
exactly when ERR = 0 (R29, R160), and it is at most 6 (R160, spec/93 U16). -/
abbrev State.StatusCoherent (s : State) : Prop :=
  ¬(s.done = true ∧ s.err = true)
    ∧ (s.busy = true → s.done = false ∧ s.err = false)
    ∧ (s.err = false ↔ s.errcode = 0#4)
    ∧ s.errcode.toNat ≤ 6

/-- CFG_VALID = 1 only over a configuration that passes the check (R26, R103). -/
abbrev State.ConfigChecked (s : State) : Prop := s.cfgValid = true → s.configLegal

/-- RESET is never a pending command (R105, R195). -/
abbrev State.PendingNotReset (s : State) : Prop := s.pend ≠ some (encode .reset)

/-- CODE is BINCODE reduced to some legal number of digits (R44, R45, R122, R127). -/
abbrev State.CodeReduced (s : State) : Prop :=
  ∃ d ∈ [6, 7, 8, 9], s.code.toNat = s.bincode.toNat % 10 ^ d

/-- While rst_n = 0 the unit is in its reset state (R190). -/
abbrev State.HeldInReset (s : State) : Prop := s.rstN = false → s = s.resetUnit

/-- What holds in every state that a run from reset reaches. -/
abbrev State.Inv (s : State) : Prop :=
  s.StatusCoherent ∧ s.ConfigChecked ∧ s.PendingNotReset ∧ s.CodeReduced ∧ s.HeldInReset

end Sys2Proof.Machine
end

