-- ==== Sys2Proof/Certificates/Slice0/Obligations.lean ====
section
/-!
DEFINITION. Certificates/Slice0/Obligations.lean: the statements for the provers, each with the rule of
the spec it formalises. `next` is the outcome in which the machine goes on. Where a statement names the
bus answer of a legal write, its err = 0 is the rule's; that it carries no read data is the model's
way of saying that the spec states none (log 7).
-/

open Sys2Proof Sys2Proof.Machine
open Host.Outcome (next refused)

/-! ## Encoding -/

/-- R82: the words of the five defined commands decode to them, and some words of the reserved space
(R84, R85) to BADCMD. -/
def Obligations.DecodeOfTableWords : Prop :=
  decode 0b00000000000000000000000000000000#32 = .nop
    ∧ decode 0b00000000000000000000000000000001#32 = .config
    ∧ decode 0b00000000000000000000000000000010#32 = .trunc
    ∧ decode 0b00000000000000000000000000000011#32 = .steps
    ∧ decode 0b00000000000000000000000000001111#32 = .reset
    ∧ decode 0x00000004#32 = .badcmd 0x04#8 0#24
    ∧ decode 0x000000FF#32 = .badcmd 0xFF#8 0#24
    ∧ decode 0x0000010F#32 = .badcmd 0x0F#8 1#24

/-- R83, clause by clause: a word with bits [31:8] not zero is BADCMD; otherwise bits [7:0] decide. -/
def Obligations.DecodeFollowsOpcodeField : Prop :=
  ∀ w : Word,
    (w.toNat / 256 ≠ 0 → ∃ op rsv, decode w = .badcmd op rsv)
    ∧ (w.toNat / 256 = 0 →
        (w.toNat % 256 = 0x00 → decode w = .nop)
        ∧ (w.toNat % 256 = 0x01 → decode w = .config)
        ∧ (w.toNat % 256 = 0x02 → decode w = .trunc)
        ∧ (w.toNat % 256 = 0x03 → decode w = .steps)
        ∧ (w.toNat % 256 = 0x0F → decode w = .reset)
        ∧ (w.toNat % 256 ∉ [0x00, 0x01, 0x02, 0x03, 0x0F] → ∃ op rsv, decode w = .badcmd op rsv))

/-- R80, R82, R83: decoding the word of a well-formed command gives it back with every field at every
value, every word decodes to a well-formed command, and that command's word is the word itself. -/
def Obligations.DecodeAndEncodeAgree : Prop :=
  (∀ i : Instr, i.wellFormed = true → decode (encode i) = i)
    ∧ ∀ w : Word, (decode w).wellFormed = true ∧ encode (decode w) = w

/-- R84: RESET has exactly one encoding; a word with OP = 0x0F and RSV ≠ 0 is BADCMD, and while a
command is pending it is dropped like any other word that is not RESET. (That the write's answer
carries no read data is the model's choice, log 7.) -/
def Obligations.ResetHasOneEncoding : Prop :=
  (∀ w : Word, decode w = .reset ↔ w = 0x0000000F#32)
    ∧ ∀ (s : State) (w : Word), opField w = 0x0F#8 → rsvField w ≠ 0#24 →
        decode w = .badcmd 0x0F#8 (rsvField w)
        ∧ (s.rstN = true → s.busy = true →
            busStep (cmdTxn w) s = next ({ s with ovr := true }.answer writeAnswer))

/-! ## Register map and reset -/

/-- R20, R40: the offset of each register is the one of the table, the register at each register's offset
is that register, no other offset leads to it, and every offset that is no multiple of 4 or lies in
0x48 to 0x7F or 0xC0 to 0xFF leads to none. -/
def Obligations.RegisterMapIsExact : Prop :=
  regAt 0x00 = some .id ∧ regAt 0x04 = some .cmd ∧ regAt 0x08 = some .status
    ∧ regAt 0x0C = some .cfg ∧ regAt 0x10 = some .dlen ∧ regAt 0x14 = some .tstep
    ∧ regAt 0x18 = some .baseLo ∧ regAt 0x1C = some .baseHi
    ∧ regAt 0x20 = some .nowLo ∧ regAt 0x24 = some .nowHi
    ∧ regAt 0x28 = some .counterLo ∧ regAt 0x2C = some .counterHi
    ∧ regAt 0x30 = some .msg0 ∧ regAt 0x34 = some .msg1
    ∧ regAt 0x38 = some .offset ∧ regAt 0x3C = some .bincode ∧ regAt 0x40 = some .code
    ∧ regAt 0x44 = some .dlenEff
    ∧ (∀ k : Fin 16, regAt (BitVec.ofNat 8 (0x80 + 4 * k.val)) = some (.digest k))
    ∧ (∀ r : Reg, regAt r.addr = some r)
    ∧ (∀ (a : Offset) (r : Reg), regAt a = some r → r.addr = a)
    ∧ ∀ a : Offset,
        (a.toNat % 4 ≠ 0 ∨ (0x48 ≤ a.toNat ∧ a.toNat ≤ 0x7F) ∨ 0xC0 ≤ a.toNat) ↔ regAt a = none

/-- R50, R190, R191: after the RESET command and after rst_n goes low, from any state, every offset
reads its reset value, PEND is empty and msg_out is 0; and both leave the same unit. -/
def Obligations.ResetGivesResetValues : Prop :=
  ∀ s : State, ∃ t : State,
    exec .reset s = next t
    ∧ performInput (.rst false) s = next { t with rstN := false }
    ∧ (∀ a : Offset, t.readOffset a = resetValueAt a)
    ∧ t.statusWord = 0#32 ∧ t.pend = none ∧ t.msgOut = 0#64

/-- R105: RESET puts every register to its reset value, discards PEND, does not set DONE, and leaves
what is outside the unit (log 18); it is performed in the step of its CMD write, whether the unit is
busy or not; rst_n going low has the same effect on the unit. (The cycle count is left out: no rule
says what a reset does to it, log 5.) -/
def Obligations.ResetCompletes : Prop :=
  (∀ s : State, ∃ t, exec .reset s = next t
      ∧ { t with cycles := 0 }
          = { State.reset with
              rstN := s.rstN, inputs := s.inputs, turns := s.turns, answers := s.answers, cycles := 0 })
    ∧ (∀ s : State, s.rstN = true →
        busStep (cmdTxn 0x0000000F#32) s = next (s.resetUnit.answer writeAnswer))
    ∧ ∀ s : State, exec .reset s = next s.resetUnit
        ∧ performInput (.rst false) s = next { s.resetUnit with rstN := false }

/-- R22, R23: ID reads 0x4F540100 in every state, its upper half is ASCII "OT", its versions are 1 and
0; CMD reads 0 in every state. -/
def Obligations.IdAndCmdReadConstants : Prop :=
  ∀ s : State, s.readOffset 0x00 = 0x4F540100#32 ∧ s.readOffset 0x04 = 0#32

/-- R48: reserved offsets and the reserved bits of registers read 0 in every state; a legal write to a
reserved offset changes nothing but the bus answer, which reports no error, also while busy; and a
write that differs only in reserved bits has the same effect. (That the write's answer carries no read
data is the model's choice, log 7.) -/
def Obligations.ReservedBitsReadZeroAndIgnoreWrites : Prop :=
  (∀ (s : State) (a : Offset),
      (0x48 ≤ a.toNat ∧ a.toNat ≤ 0x7C) ∨ (0xC0 ≤ a.toNat ∧ a.toNat ≤ 0xFC) → s.readOffset a = 0#32)
    ∧ (∀ (s : State) (a : Offset) (v : Word), s.rstN = true → a.toNat % 4 = 0 →
        (0x48 ≤ a.toNat ∧ a.toNat ≤ 0x7C) ∨ (0xC0 ≤ a.toNat ∧ a.toNat ≤ 0xFC) →
        busStep ⟨.write, a, .word, v⟩ s = next (s.answer ⟨none, false⟩))
    ∧ (∀ s : State,
        (s.readReg .status).toNat < 2 ^ 9 ∧ (s.readReg .cfg).toNat < 2 ^ 6
        ∧ (s.readReg .dlen).toNat < 2 ^ 7 ∧ (s.readReg .offset).toNat < 2 ^ 4
        ∧ (s.readReg .bincode).toNat < 2 ^ 31 ∧ (s.readReg .code).toNat < 2 ^ 30
        ∧ (s.readReg .dlenEff).toNat < 2 ^ 7)
    ∧ ∀ (s : State) (v v' : Word),
        (v.toNat % 2 ^ 6 = v'.toNat % 2 ^ 6 → legalWrite 0x0C v s = legalWrite 0x0C v' s)
        ∧ (v.toNat % 2 ^ 7 = v'.toNat % 2 ^ 7 → legalWrite 0x10 v s = legalWrite 0x10 v' s)
        ∧ (v.getLsbD 8 = v'.getLsbD 8 → legalWrite 0x08 v s = legalWrite 0x08 v' s)
        ∧ (∀ r ∈ [Reg.offset, .bincode, .code, .dlenEff], legalWrite r.addr v s = next s)

/-- R24: the layout of STATUS; what a write of it does, also while busy; its reset value. (That the
write's answer carries no read data is the model's choice, log 7.) -/
def Obligations.StatusLayoutAndWrite : Prop :=
  (∀ s : State,
      (s.readReg .status).toNat
        = s.busy.toNat + 2 * s.cfgValid.toNat + 4 * s.done.toNat + 8 * s.err.toNat
          + 16 * s.errcode.toNat + 256 * s.ovr.toNat)
    ∧ (∀ (s : State) (v : Word), s.rstN = true →
        busStep ⟨.write, 0x08, .word, v⟩ s
          = next ({ s with ovr := if v.toNat / 256 % 2 = 1 then false else s.ovr }.answer writeAnswer))
    ∧ State.reset.readReg .status = 0#32

/-! ## Bus transactions -/

/-- R62: an illegal transaction answers err = 1 and rdata = 0 and changes nothing else; a legal one
answers err = 0. -/
def Obligations.IllegalAccessChangesNothing : Prop :=
  ∀ (s : State) (t : Txn), s.rstN = true →
    (¬(t.size = .word ∧ t.addr.toNat % 4 = 0) →
        busStep t s = next { s with answers := ⟨some 0, true⟩ :: s.answers })
    ∧ (t.size = .word ∧ t.addr.toNat % 4 = 0 →
        ∃ u a, busStep t s = next u ∧ u.answers = a :: s.answers ∧ a.err = false)

/-- R63, R70: a legal read answers the value of the register at the offset, 0 for CMD and for a reserved
offset, and changes no other state, while busy as well. -/
def Obligations.ReadsReturnTheRegisterAndChangeNothing : Prop :=
  ∀ (s : State) (a : Offset) (v : Word), s.rstN = true → a.toNat % 4 = 0 →
    busStep ⟨.read, a, .word, v⟩ s
        = next { s with answers := ⟨some (s.readOffset a), false⟩ :: s.answers }
    ∧ (∀ r : Reg, r.addr = a → s.readOffset a = s.readReg r)
    ∧ (a = Reg.addr .cmd → s.readOffset a = 0#32)
    ∧ ((∀ r : Reg, r.addr ≠ a) → s.readOffset a = 0#32)

/-- R64, R65, R195: what a legal write does while busy, and that every legal write is accepted while the
unit is idle: it has its effect, which is none for a read-only register or a reserved offset, and does
not set OVR; for every offset of the window. (That a write's answer carries no read data is the
model's choice, log 7; of an accepted command the cycle count is left out, log 5.) -/
def Obligations.WritesWhileBusy : Prop :=
  (∀ (s : State) (v : Word), s.rstN = true → s.busy = true →
      busStep ⟨.write, 0x08, .word, v⟩ s = next ((s.writeStatus v).answer writeAnswer)
      ∧ busStep ⟨.write, 0x04, .word, 0x0000000F#32⟩ s = next (s.resetUnit.answer writeAnswer)
      ∧ (v ≠ 0x0000000F#32 →
          busStep ⟨.write, 0x04, .word, v⟩ s = next ({ s with ovr := true }.answer writeAnswer))
      ∧ (∀ r ∈ [Reg.cfg, .dlen, .tstep, .baseLo, .baseHi, .nowLo, .nowHi, .counterLo, .counterHi],
          busStep ⟨.write, r.addr, .word, v⟩ s = next ({ s with ovr := true }.answer writeAnswer))
      ∧ (∀ k : Fin 16,
          busStep ⟨.write, Reg.addr (.digest k), .word, v⟩ s
            = next ({ s with ovr := true }.answer writeAnswer))
      ∧ (∀ r ∈ [Reg.id, .msg0, .msg1, .offset, .bincode, .code, .dlenEff],
          busStep ⟨.write, r.addr, .word, v⟩ s = next (s.answer writeAnswer))
      ∧ (∀ a : Offset, a.toNat % 4 = 0 → regAt a = none →
          busStep ⟨.write, a, .word, v⟩ s = next (s.answer writeAnswer)))
    ∧ ∀ (s : State) (a : Offset) (v : Word), s.rstN = true → s.busy = false → a.toNat % 4 = 0 →
        ∃ t, busStep ⟨.write, a, .word, v⟩ s = next t ∧ (t.ovr = true → s.ovr = true)
          ∧ (∀ r : Reg, r.access = .readWrite → r.addr = a → t = (s.storeReg r v).answer writeAnswer)
          ∧ (a = 0x08 → t = (s.writeStatus v).answer writeAnswer)
          ∧ (a = 0x04 → v = 0x0000000F#32 → t = s.resetUnit.answer writeAnswer)
          ∧ (a = 0x04 → v ≠ 0x0000000F#32 →
              { t with cycles := s.cycles }
                = { s with pend := some v, done := false, err := false, errcode := 0 }.answer
                    writeAnswer)
          ∧ (∀ r ∈ [Reg.id, .msg0, .msg1, .offset, .bincode, .code, .dlenEff], r.addr = a →
              t = s.answer writeAnswer)
          ∧ (regAt a = none → t = s.answer writeAnswer)

/-- R33, R199: an accepted write of an operand register stores its defined bits, clears CFG_VALID for a
configuration register and keeps it for the others, and every offset but that register, STATUS and the
views of that register reads as before. A write that is not accepted stores nothing. -/
def Obligations.AcceptedWritesStore : Prop :=
  ∀ (s : State) (v : Word), s.rstN = true →
    (s.busy = false →
      (∃ t, busStep ⟨.write, 0x0C, .word, v⟩ s = next t
        ∧ (t.readReg .cfg).toNat = v.toNat % 2 ^ 6 ∧ t.cfgValid = false
        ∧ sameFlagsButCfgValid s t
        ∧ readsAsBefore [.cfg, .dlenEff, .status] s t)
      ∧ (∃ t, busStep ⟨.write, 0x10, .word, v⟩ s = next t
        ∧ (t.readReg .dlen).toNat = v.toNat % 2 ^ 7 ∧ t.cfgValid = false
        ∧ sameFlagsButCfgValid s t
        ∧ readsAsBefore [.dlen, .dlenEff, .status] s t)
      ∧ (∀ r ∈ [Reg.tstep, .baseLo, .baseHi],
        ∃ t, busStep ⟨.write, r.addr, .word, v⟩ s = next t
          ∧ t.readReg r = v ∧ t.cfgValid = false ∧ sameFlagsButCfgValid s t
          ∧ readsAsBefore [r, .status] s t)
      ∧ (∀ r ∈ [Reg.nowLo, .nowHi],
        ∃ t, busStep ⟨.write, r.addr, .word, v⟩ s = next t
          ∧ t.readReg r = v ∧ readsAsBefore [r] s t)
      ∧ (∃ t, busStep ⟨.write, 0x28, .word, v⟩ s = next t
        ∧ t.readReg .counterLo = v ∧ t.readReg .msg1 = v ∧ readsAsBefore [.counterLo, .msg1] s t)
      ∧ (∃ t, busStep ⟨.write, 0x2C, .word, v⟩ s = next t
        ∧ t.readReg .counterHi = v ∧ t.readReg .msg0 = v ∧ readsAsBefore [.counterHi, .msg0] s t)
      ∧ (∀ k : Fin 16,
        ∃ t, busStep ⟨.write, Reg.addr (.digest k), .word, v⟩ s = next t
          ∧ t.readReg (.digest k) = v ∧ readsAsBefore [.digest k] s t))
    ∧ (s.busy = true → ∀ r : Reg, r.access = .readWrite →
        ∃ t, busStep ⟨.write, r.addr, .word, v⟩ s = next t
          ∧ readsAsBefore [.status] s t ∧ t.cfgValid = s.cfgValid
          ∧ t.busy = s.busy ∧ t.done = s.done ∧ t.err = s.err ∧ t.errcode = s.errcode)

/-- R195: acceptance of a command word; RESET is not accepted as a pending command; a word written
while busy is dropped. (The cycle count is left out: no rule says where it starts, log 5.) -/
def Obligations.CommandAcceptance : Prop :=
  ∀ (s : State) (w : Word), s.rstN = true → w ≠ 0x0000000F#32 →
    (s.busy = false →
      ∃ t, busStep (cmdTxn w) s = next t
        ∧ { t with cycles := s.cycles }
            = { s with pend := some w, done := false, err := false, errcode := 0 }.answer writeAnswer)
    ∧ (s.busy = true → busStep (cmdTxn w) s = next ({ s with ovr := true }.answer writeAnswer))

/-- R195, R198: in any step after which a command is still pending, it is the same command, every
offset but STATUS reads as before, and of STATUS only OVR can change. -/
def Obligations.OperandsHeldWhilePending : Prop :=
  ∀ s t : State, s.busy = true → step s = next t → t.busy = true →
    t.pend = s.pend ∧ readsAsBefore [.status] s t
      ∧ t.cfgValid = s.cfgValid ∧ t.done = s.done ∧ t.err = s.err ∧ t.errcode = s.errcode

/-- R69, R70: writing the same value twice to an operand register leaves what writing it once leaves. -/
def Obligations.OperandWritesAreIdempotent : Prop :=
  ∀ (r : Reg) (v : Word) (s : State), s.rstN = true → s.busy = false → r.access = .readWrite →
    ∃ t u, legalWrite r.addr v s = next t ∧ legalWrite r.addr v t = next u ∧ u = t

/-- R68, R87: from an idle unit the two writes of `WR64 X, v` leave v, in two's complement, in the pair,
and `_LO` is the lower offset of the two. -/
def Obligations.WrSixtyFourSetsThePair : Prop :=
  ∀ (s : State) (v : Int) (rest : List Input), s.rstN = true → s.busy = false →
    (s.inputs = wr64 .base v ++ rest →
      ∃ t, core.run 2 s = next t ∧ t.base = BitVec.ofInt 64 v ∧ t.inputs = rest)
    ∧ (s.inputs = wr64 .now v ++ rest →
      ∃ t, core.run 2 s = next t ∧ t.now = BitVec.ofInt 64 v ∧ t.inputs = rest)
    ∧ (s.inputs = wr64 .counter v ++ rest →
      ∃ t, core.run 2 s = next t ∧ t.counter = BitVec.ofInt 64 v ∧ t.msgOut = t.counter
        ∧ t.inputs = rest)

/-! ## Views -/

/-- R39, R78, R120: byte M[i] is byte i of COUNTER from the top; MSG0 and MSG1 read the halves of
COUNTER; msg_out is COUNTER. -/
def Obligations.MessageIsTheCounterBigEndian : Prop :=
  ∀ s : State,
    (∀ i : Fin 8, (s.messageByte i).toNat = s.counter.toNat / 256 ^ (7 - i.val) % 256)
    ∧ s.readReg .msg0 = s.readReg .counterHi ∧ s.readReg .msg1 = s.readReg .counterLo
    ∧ s.msgOut = s.counter

/-- R42: DLEN_EFF for each value of HALG, and its bounds while CFG_VALID = 1. (The bounds are an
inference that the rule marks as derived.) -/
def Obligations.EffectiveDigestLength : Prop :=
  ∀ s : State,
    (s.readReg .dlenEff).toNat < 2 ^ 7
    ∧ (s.halg = 0#2 → (s.readReg .dlenEff).toNat = 20)
    ∧ (s.halg = 1#2 → (s.readReg .dlenEff).toNat = 32)
    ∧ (s.halg = 2#2 → (s.readReg .dlenEff).toNat = 64)
    ∧ (s.halg = 3#2 → s.readReg .dlenEff = s.readReg .dlen)
    ∧ (s.Inv → s.cfgValid = true →
        20 ≤ (s.readReg .dlenEff).toNat ∧ (s.readReg .dlenEff).toNat ≤ 64)

/-- R40: DIGEST_k reads D[4k] in bits [31:24] down to D[4k+3] in bits [7:0]; every byte is 0 at reset;
an accepted write of b0 ++ b1 ++ b2 ++ b3 to DIGEST_k makes D[4k] .. D[4k+3] these bytes and leaves
every other byte of the buffer; no command but RESET changes a byte of it. -/
def Obligations.DigestBytesArePackedBigEndian : Prop :=
  (∀ (s : State) (k : Fin 16),
      s.readOffset (BitVec.ofNat 8 (0x80 + 4 * k.val))
        = s.bufferByte ⟨4 * k.val, by omega⟩ ++ s.bufferByte ⟨4 * k.val + 1, by omega⟩
          ++ s.bufferByte ⟨4 * k.val + 2, by omega⟩ ++ s.bufferByte ⟨4 * k.val + 3, by omega⟩)
    ∧ (∀ i : Fin 64, State.reset.bufferByte i = 0#8)
    ∧
  (∀ (s : State) (k : Fin 16) (b0 b1 b2 b3 : Byte), s.rstN = true → s.busy = false →
      ∃ t, busStep ⟨.write, Reg.addr (.digest k), .word, b0 ++ b1 ++ b2 ++ b3⟩ s = next t
        ∧ t.bufferByte ⟨4 * k.val, by omega⟩ = b0 ∧ t.bufferByte ⟨4 * k.val + 1, by omega⟩ = b1
        ∧ t.bufferByte ⟨4 * k.val + 2, by omega⟩ = b2 ∧ t.bufferByte ⟨4 * k.val + 3, by omega⟩ = b3
        ∧ ∀ i : Fin 64, i.val / 4 ≠ k.val → t.bufferByte i = s.bufferByte i)
    ∧ ∀ (i : Instr) (s t : State), i ≠ .reset → exec i s = next t →
        ∀ j : Fin 64, t.bufferByte j = s.bufferByte j

/-! ## Commands -/

/-- R100: NOP completes in every state and changes nothing but DONE and PEND; after its acceptance it
leaves ERR and ERRCODE clear; and the rule's worked example. -/
def Obligations.NopCompletes : Prop :=
  (∀ s : State, exec .nop s = next { s with done := true, pend := none })
    ∧ (∀ s : State, ∃ t, exec .nop (s.accept (encode .nop)) = next t
        ∧ t.err = false ∧ t.errcode = 0#4 ∧ t.cfgValid = s.cfgValid ∧ t.ovr = s.ovr
        ∧ readsAsBefore [.status] s t)
    ∧ decode 0x00000000#32 = .nop
    ∧ ∀ s : State, s.statusWord = 0x00000058#32 →
        ∃ t, exec .nop (s.accept (encode .nop)) = next t ∧ t.statusWord = 0x00000004#32

/-- R101, R102: CONFIG, word 0x00000001, on every configuration. The first failing check of the rule's
order decides the code, the failing command clears CFG_VALID and changes nothing else but STATUS; a
legal configuration sets CFG_VALID and DONE and changes nothing else but STATUS. -/
def Obligations.ConfigChecksInOrder : Prop :=
  decode 0x00000001#32 = .config ∧ ∀ s : State,
    (s.configLegal →
      exec .config s = next { s with cfgValid := true, done := true, pend := none })
    ∧ (¬(6 ≤ s.digits.toNat ∧ s.digits.toNat ≤ 9) →
      exec .config s
        = next { s with cfgValid := false, err := true, errcode := 1, pend := none })
    ∧ (6 ≤ s.digits.toNat ∧ s.digits.toNat ≤ 9 →
        s.halg = 3#2 ∧ ¬(20 ≤ s.dlen.toNat ∧ s.dlen.toNat ≤ 64) →
      exec .config s
        = next { s with cfgValid := false, err := true, errcode := 2, pend := none })
    ∧ (6 ≤ s.digits.toNat ∧ s.digits.toNat ≤ 9 →
        (s.halg = 3#2 → 20 ≤ s.dlen.toNat ∧ s.dlen.toNat ≤ 64) → s.tstep = 0#32 →
      exec .config s
        = next { s with cfgValid := false, err := true, errcode := 3, pend := none })

/-- R103: a succeeding CONFIG sets CFG_VALID and changes no operand or result register; a step that
keeps CFG_VALID at 1 changes no configuration register; and a step that clears it is an accepted write
of a configuration register, a failing CONFIG, the RESET word or rst_n low. (RESET is never a pending
command, which StepKeepsTheInvariant says of every state a run reaches.) -/
def Obligations.ConfigurationIsImmutableWhileValid : Prop :=
  (∀ s : State, s.configLegal →
      ∃ t, exec .config s = next t ∧ t.cfgValid = true ∧ readsAsBefore [.status] s t)
  ∧ ∀ s t : State, s.PendingNotReset → step s = next t → s.cfgValid = true →
    (t.cfgValid = true →
      t.readReg .cfg = s.readReg .cfg ∧ t.readReg .dlen = s.readReg .dlen
      ∧ t.readReg .tstep = s.readReg .tstep ∧ t.base = s.base)
    ∧ (t.cfgValid = false →
        (∃ r ∈ [Reg.cfg, .dlen, .tstep, .baseLo, .baseHi], ∃ v,
            s.busy = false ∧ s.inputs.head? = some (.bus ⟨.write, r.addr, .word, v⟩))
        ∨ (s.pend = some (encode .config) ∧ ¬s.configLegal)
        ∨ s.inputs.head? = some (.bus (cmdTxn (encode .reset)))
        ∨ s.inputs.head? = some (.rst false))

/-- R122, R123, R125: TRUNC, word 0x00000002, with a valid, legal configuration completes. With L =
DLEN_EFF, OFFSET is the low nibble of D[L-1], BINCODE is the big-endian value of the four bytes there
with the top bit cleared, CODE is BINCODE mod 10^DIGITS; nothing else changes but STATUS. Without a
valid configuration it ends with E_NOCFG and writes no result. -/
def Obligations.TruncComputesTheCode : Prop :=
  decode 0x00000002#32 = .trunc
    ∧ (∀ s : State, s.cfgValid = true → s.configLegal →
      (s.halg = 0#2 → s.digestLen = 20) ∧ (s.halg = 1#2 → s.digestLen = 32)
      ∧ (s.halg = 2#2 → s.digestLen = 64) ∧ (s.halg = 3#2 → s.digestLen = s.dlen.toNat)
      ∧ ∃ t, exec .trunc s = next t
        ∧ (t.readReg .offset).toNat = s.windowByte (s.digestLen - 1) % 16
        ∧ (t.readReg .bincode).toNat
            = s.windowByte (t.readReg .offset).toNat % 128 * 2 ^ 24
              + s.windowByte ((t.readReg .offset).toNat + 1) * 2 ^ 16
              + s.windowByte ((t.readReg .offset).toNat + 2) * 2 ^ 8
              + s.windowByte ((t.readReg .offset).toNat + 3)
        ∧ (t.readReg .code).toNat = (t.readReg .bincode).toNat % 10 ^ s.digits.toNat
        ∧ readsAsBefore [.offset, .bincode, .code, .status] s t
        ∧ { t with offset := s.offset, bincode := s.bincode, code := s.code }
            = { s with done := true, pend := none })
    ∧ ∀ s : State, s.cfgValid = false →
        exec .trunc s = next { s with err := true, errcode := 4, pend := none }

/-- R126: with a valid configuration of a reachable state the four bytes TRUNC reads lie inside the
digest and never include its last byte. (An inference that R126 marks as derived.) -/
def Obligations.TruncWindowStaysInsideTheDigest : Prop :=
  ∀ s : State, s.Inv → s.cfgValid = true →
    s.truncOffset ≤ 15 ∧ s.truncOffset + 3 ≤ 18 ∧ 18 ≤ s.digestLen - 2
      ∧ s.truncOffset + 3 < s.digestLen - 1 ∧ s.digestLen ≤ 64

/-- R127: the ranges of the three results after a TRUNC with a valid configuration. (An inference that
R127 marks as derived.) -/
def Obligations.TruncResultsAreInRange : Prop :=
  ∀ s : State, s.Inv → s.cfgValid = true →
    ∃ t, exec .trunc s = next t
      ∧ (t.readReg .code).toNat < 10 ^ s.digits.toNat
      ∧ 6 ≤ s.digits.toNat ∧ s.digits.toNat ≤ 9
      ∧ (t.readReg .bincode).toNat ≤ 2147483647 ∧ (t.readReg .offset).toNat ≤ 15

/-- R128, R129 (e), (g), (h): two units with valid configurations that agree on DIGITS, on the
effective digest length L and on D[0..L-1] get the same results from TRUNC, whatever else differs. (An
inference that R128 marks as derived.) -/
def Obligations.TruncDependsOnlyOnTheDigestPrefix : Prop :=
  ∀ s t : State, s.Inv → t.Inv → s.cfgValid = true → t.cfgValid = true →
    s.digits = t.digits → s.digestLen = t.digestLen →
    (∀ i < s.digestLen, s.windowByte i = t.windowByte i) →
    ∃ s' t', exec .trunc s = next s' ∧ exec .trunc t = next t'
      ∧ s'.offset = t'.offset ∧ s'.bincode = t'.bincode ∧ s'.code = t'.code

/-- R140, R143: STEPS, word 0x00000003, with a valid configuration and NOW not before BASE completes.
COUNTER is the number of whole steps in the exact elapsed time; the message follows; nothing else
changes but STATUS. With NOW before BASE it ends with E_NEGTIME, and without a valid configuration with
E_NOCFG, COUNTER unchanged. -/
def Obligations.StepsCountsElapsedSteps : Prop :=
  decode 0x00000003#32 = .steps
  ∧ (∀ s : State, s.cfgValid = false →
      exec .steps s = next { s with err := true, errcode := 4, pend := none })
  ∧ (∀ s : State, s.cfgValid = true → s.tstep ≠ 0#32 → s.now.toInt < s.base.toInt →
      exec .steps s = next { s with err := true, errcode := 5, pend := none })
  ∧ ∀ s : State, s.cfgValid = true → s.tstep ≠ 0#32 → s.base.toInt ≤ s.now.toInt →
    ∃ t, exec .steps s = next t
      ∧ (t.counter.toNat : Int) * s.tstep.toNat ≤ s.now.toInt - s.base.toInt
      ∧ s.now.toInt - s.base.toInt < ((t.counter.toNat : Int) + 1) * s.tstep.toNat
      ∧ t.readReg .msg0 = highWord t.counter ∧ t.readReg .msg1 = lowWord t.counter
      ∧ t.msgOut = t.counter
      ∧ readsAsBefore [.counterLo, .counterHi, .msg0, .msg1, .status] s t
      ∧ { t with counterLo := s.counterLo, counterHi := s.counterHi }
          = { s with done := true, pend := none }

/-- R141: without a valid configuration STEPS ends with E_NOCFG and COUNTER is unchanged; a reachable
state with a valid configuration has TSTEP ≠ 0, so no division by zero is reached. (The second part is
an inference that R141 marks as derived.) -/
def Obligations.StepsNeedsAConfiguration : Prop :=
  (∀ s : State, s.cfgValid = false →
      exec .steps s = next { s with err := true, errcode := 4, pend := none })
    ∧ ∀ s : State, s.Inv → s.cfgValid = true → s.tstep ≠ 0#32

/-- R142: the elapsed time is exact; its floor quotient is negative exactly when NOW is before BASE, and
then STEPS ends with E_NEGTIME and COUNTER is unchanged. (That the quotient is negative exactly then is
an inference that R142 marks as derived.) -/
def Obligations.StepsRejectsTimeBeforeBase : Prop :=
  ∀ s : State, s.cfgValid = true → s.tstep ≠ 0#32 →
    -(2 ^ 64 - 1) ≤ s.elapsed ∧ s.elapsed ≤ 2 ^ 64 - 1
    ∧ s.elapsed = s.now.toInt - s.base.toInt
    ∧ (floorDiv s.elapsed s.tstep.toNat < 0 ↔ s.now.toInt < s.base.toInt)
    ∧ (s.now.toInt < s.base.toInt →
        exec .steps s = next { s with err := true, errcode := 5, pend := none })

/-- R85: which words are illegal. An illegal word written to an idle unit is accepted like any
command, and then completes with E_BADCMD and nothing else changes. -/
def Obligations.IllegalWordsCompleteWithBadcmd : Prop :=
  (∀ (op : BitVec 8) (rsv : BitVec 24) (s : State),
      exec (.badcmd op rsv) s = next { s with err := true, errcode := 6, pend := none })
    ∧ (∀ w : Word, (∃ op rsv, decode w = .badcmd op rsv)
        ↔ w.toNat / 256 ≠ 0 ∨ (4 ≤ w.toNat % 256 ∧ w.toNat % 256 ≠ 0x0F))
    ∧ ∀ (w : Word) (s : State), (∃ op rsv, decode w = .badcmd op rsv) → s.rstN = true →
        s.busy = false →
        ∃ t u, busStep (cmdTxn w) s = next t ∧ t.busy = true ∧ t.done = false ∧ t.err = false
          ∧ t.errcode = 0#4 ∧ readsAsBefore [.status] s t
          ∧ sequencerStep t = next u ∧ u.err = true ∧ u.errcode = 6#4 ∧ u.busy = false
          ∧ u.done = false ∧ u.cfgValid = s.cfgValid ∧ u.ovr = s.ovr ∧ readsAsBefore [.status] s u

/-- R37, R38, R40, R49: what no command but RESET changes, and which command alone may change COUNTER,
the results and CFG_VALID. -/
def Obligations.CommandFrame : Prop :=
  ∀ (i : Instr) (s t : State), i ≠ .reset → exec i s = next t →
    readsAsBefore [.status, .counterLo, .counterHi, .msg0, .msg1, .offset, .bincode, .code] s t
    ∧ (i ≠ .steps → readsAsBefore [.status, .offset, .bincode, .code] s t)
    ∧ (i ≠ .trunc → readsAsBefore [.status, .counterLo, .counterHi, .msg0, .msg1] s t)
    ∧ (i ≠ .config → t.cfgValid = s.cfgValid)
    ∧ t.ovr = s.ovr ∧ t.rstN = s.rstN ∧ t.inputs = s.inputs ∧ t.turns = s.turns
    ∧ t.answers = s.answers

/-- R162, R165: a command that ends with an error leaves the state before it with only ERR, ERRCODE,
BUSY, and for CONFIG CFG_VALID, changed; the code is one of R160. -/
def Obligations.ErrorsArePrecise : Prop :=
  ∀ (i : Instr) (s t : State), s.err = false → exec i s = next t → t.err = true →
    t = { s with
            err := true, errcode := t.errcode, pend := none,
            cfgValid := if i = .config then false else s.cfgValid }
    ∧ 1 ≤ t.errcode.toNat ∧ t.errcode.toNat ≤ 6

/-- R163: with several error conditions at once, the first of the rule's order is the one reported. -/
def Obligations.ErrorPriority : Prop :=
  ∀ s : State, s.err = false →
    (∀ w op rsv, s.pend = some w → decode w = .badcmd op rsv →
        ∃ t, sequencerStep s = next t ∧ t.errcode = 6#4)
    ∧ (s.cfgValid = false →
        (∃ t, exec .trunc s = next t ∧ t.errcode = 4#4)
        ∧ ∃ t, exec .steps s = next t ∧ t.errcode = 4#4)
    ∧ (s.cfgValid = true → s.tstep ≠ 0#32 → s.now.toInt < s.base.toInt →
        ∃ t, exec .steps s = next t ∧ t.errcode = 5#4)
    ∧ ∃ t, exec .config s = next t
        ∧ (t.err = true →
            (t.errcode = 1#4 ↔ ¬(6 ≤ s.digits.toNat ∧ s.digits.toNat ≤ 9))
            ∧ (t.errcode = 2#4 ↔ (6 ≤ s.digits.toNat ∧ s.digits.toNat ≤ 9)
                ∧ s.halg = 3#2 ∧ ¬(20 ≤ s.dlen.toNat ∧ s.dlen.toNat ≤ 64))
            ∧ (t.errcode = 3#4 ↔ (6 ≤ s.digits.toNat ∧ s.digits.toNat ≤ 9)
                ∧ ¬(s.halg = 3#2 ∧ ¬(20 ≤ s.dlen.toNat ∧ s.dlen.toNat ≤ 64)) ∧ s.tstep = 0#32))

/-! ## Steps -/

/-- R196, R191: the sequencer's step is exec of the command decoded from PEND, at the state with the
choice of who moves used up; the host's step at a write of the RESET word is exec of RESET, followed
by the bus answer. A command placed by withFetchWord is run by the next step. (The list of choices and
the placing are the model's, logs 1 and 2.) -/
def Obligations.StepRunsTheDecodedCommand : Prop :=
  (∀ (s : State) (w : Word), s.rstN = true → s.pend = some w →
      s.inputs = [] ∨ s.turns.headD .sequencer = .sequencer →
      step s = exec (decode w) s.spendTurn)
    ∧ (∀ (s : State) (rest : List Input), s.rstN = true →
      s.inputs = .bus (cmdTxn 0x0000000F#32) :: rest →
      s.busy = false ∨ s.turns.headD .sequencer = .host →
      step s = Result.andThen (exec .reset { s.spendTurn with inputs := rest }) (State.answer writeAnswer))
    ∧ ∀ (s : State) (nbits w : Nat), BitVec.ofNat 32 w ≠ 0x0000000F#32 →
      step (s.withFetchWord nbits w)
        = exec (decode (BitVec.ofNat 32 w)) (s.withFetchWord nbits w).spendTurn

/-- R196: a sequencer's step always goes on, leaves PEND empty, and takes no input and gives no answer.
(The list of choices of who moves is the model's, log 1.) -/
def Obligations.CompletionIsOneStep : Prop :=
  ∀ s : State, s.mover = some .sequencer →
    ∃ t, step s = next t ∧ t.pend = none ∧ t.inputs = s.inputs ∧ t.answers = s.answers
      ∧ t.turns = s.spendTurn.turns

/-- R170, R174, R194: the unit changes no register by itself. Where neither agent has a step, a step
changes nothing (the model's choice, log 10); a cycle of clk, and rst_n at its high level, leave every
offset of the window, PEND and msg_out as they were (as inputs they are the model's, logs 2 and 9); and
so does every step that is no completion, no word write of the host and no fall of rst_n. -/
def Obligations.IdleUnitKeepsItsState : Prop :=
  (∀ s : State, s.inputs = [] → s.busy = false → step s = next s)
    ∧ (∀ (s : State) (i : Input) (rest : List Input), i = .clk ∨ i = .rst true →
        s.inputs = i :: rest → s.busy = false ∨ s.turns.headD .sequencer = .host →
        ∃ t, step s = next t ∧ t.inputs = rest ∧ readsAsBefore [] s t ∧ t.pend = s.pend
          ∧ t.msgOut = s.msgOut)
    ∧ ∀ s t : State, step s = next t → s.mover ≠ some .sequencer →
        (∀ a v, s.inputs.head? ≠ some (.bus ⟨.write, a, .word, v⟩)) →
        s.inputs.head? ≠ some (.rst false) →
        readsAsBefore [] s t ∧ t.pend = s.pend ∧ t.msgOut = s.msgOut

/-- R190: while rst_n = 0 a transaction has no admitted step, and in a state that a run reaches every
step that leaves rst_n = 0 leaves every offset at its reset value and msg_out at 0. (The refusal has
the model's own name, log 8; the pin is an input of the model, log 9.) -/
def Obligations.ResetPinHoldsTheUnit : Prop :=
  (∀ (s : State) (t : Txn), s.rstN = false → busStep t s = refused .busDuringReset)
    ∧ ∀ s t : State, s.Inv → step s = next t → t.rstN = false →
        (∀ a : Offset, t.readOffset a = resetValueAt a) ∧ t.pend = none ∧ t.msgOut = 0#64

/-- R27, R28, R29, R30, R49: OVR is set in a step only by a write dropped while busy and cleared only by
a STATUS write with bit 8, RESET or rst_n; DONE, ERR and ERRCODE change only in an acceptance, a
completion or a reset. -/
def Obligations.WhoWritesTheFlags : Prop :=
  ∀ s t : State, s.PendingNotReset → step s = next t →
    (s.ovr = false → t.ovr = true →
        s.busy = true ∧ ∃ a v, s.inputs.head? = some (.bus ⟨.write, a, .word, v⟩))
    ∧ (s.ovr = true → t.ovr = false →
        (∃ v, s.inputs.head? = some (.bus ⟨.write, 0x08, .word, v⟩) ∧ v.getLsbD 8 = true)
        ∨ s.inputs.head? = some (.bus (cmdTxn (encode .reset)))
        ∨ s.inputs.head? = some (.rst false))
    ∧ (¬(t.done = s.done ∧ t.err = s.err ∧ t.errcode = s.errcode) →
        (s.busy = true ∧ t.busy = false)
        ∨ (s.busy = false ∧ ∃ w, s.inputs.head? = some (.bus (cmdTxn w)))
        ∨ s.inputs.head? = some (.rst false))

/-- R26, R27, R28, R29, R126, R127, R190: the invariant holds right after reset. -/
def Obligations.ResetMeetsTheInvariant : Prop := State.reset.Inv

/-- R26, R27, R29, R45, R105, R190: from every state that meets the invariant, reached or not, a step
gives a state that meets it. -/
def Obligations.StepKeepsTheInvariant : Prop :=
  ∀ s t : State, s.Inv → step s = next t → t.Inv

/-- R205: every accepted command completes or is discarded by a reset, whatever the host does and
whatever the choices of who moves, within as many steps as choices are left, and one more. (The
finite list of choices is the model's form of weak fairness, log 1.) -/
def Obligations.EveryAcceptedCommandEnds : Prop :=
  ∀ s : State, s.rstN = true → s.busy = true →
    ∃ k t, k ≤ s.turns.length + 1 ∧ core.run k s = next t ∧ t.busy = false

/-- R86, R205: WAIT ends, with a last STATUS read that shows BUSY = 0, whatever is pending and whatever
the choices of who moves. (WAIT as an input and the list of choices are the model's, logs 1 and 16.) -/
def Obligations.WaitEnds : Prop :=
  ∀ (s : State) (rest : List Input), s.rstN = true → s.inputs = .wait :: rest →
    ∃ k t, k ≤ s.turns.length + 2 ∧ core.run k s = next t ∧ t.inputs = rest ∧ t.busy = false
      ∧ ∃ v older, t.answers = ⟨some v, false⟩ :: older ∧ v.getLsbD 0 = false

/-- R86, R87, R196, spec/93 U18: `RUN <cmd>` on an idle unit ends whatever the choices of who moves, and
every register then reads as the command's completion right after its acceptance leaves it: the
schedule makes no difference to the result. (Logs 1 and 16.) -/
def Obligations.RunGivesTheResultOnEverySchedule : Prop :=
  ∀ (i : Instr) (s : State) (rest : List Input), i.wellFormed = true → i ≠ .reset →
    s.rstN = true → s.busy = false → s.inputs = runCmd i ++ rest →
    ∃ k t u, k ≤ s.turns.length + 3 ∧ core.run k s = next t
      ∧ exec i (s.accept (encode i)) = next u
      ∧ t.inputs = rest ∧ t.busy = false ∧ ∀ a : Offset, t.readOffset a = u.readOffset a

/-- R87: from an idle unit the writes of `LDDIG b_0 .. b_(n-1)` put b_i in D[i] and 0 in the bytes that
fill its last word, and leave the rest of the buffer; more than 64 bytes are refused. -/
def Obligations.LdDigLoadsTheDigest : Prop :=
  (∀ bytes : List Byte, 64 < bytes.length → ldDig bytes = none)
    ∧ ∀ (bytes : List Byte) (s : State) (rest : List Input), bytes.length ≤ 64 →
        s.rstN = true → s.busy = false →
        ∃ load, ldDig bytes = some load ∧ load.length = (bytes.length + 3) / 4
          ∧ (s.inputs = load ++ rest →
              ∃ t, core.run load.length s = next t ∧ t.inputs = rest
                ∧ ∀ i : Fin 64, t.bufferByte i
                    = if i.val < 4 * load.length then bytes.getD i.val 0 else s.bufferByte i)

/-- R106: the host sequence of `build_config(digits)` ends, whatever the choices of who moves; it ends
with DONE = 1 and a valid configuration of SHA-1, 30 seconds and epoch base exactly for digits 6 to 9,
and else with ERR = 1 and ERRCODE = 1. The sequence without its writes of TSTEP and BASE, where these
hold their reset values, does the same. (Inferences that R106 marks as derived; logs 1 and 16.) -/
def Obligations.BuildConfigAcceptsSixToNineDigits : Prop :=
  ∀ (d : BitVec 4) (s : State) (rest : List Input), s.rstN = true → s.busy = false →
    s.inputs = buildConfig d ++ rest
      ∨ (s.inputs = buildConfigAfterReset d ++ rest ∧ s.tstep = 30#32 ∧ s.base = 0#64) →
    ∃ k t, core.run k s = next t ∧ t.inputs = rest ∧ t.busy = false
      ∧ t.digits = d ∧ t.halg = 0#2 ∧ t.tstep = 30#32 ∧ t.base = 0#64
      ∧ (t.done = true ↔ 6 ≤ d.toNat ∧ d.toNat ≤ 9)
      ∧ (t.cfgValid = true ↔ 6 ≤ d.toNat ∧ d.toNat ≤ 9)
      ∧ (t.err = true ∧ t.errcode = 1#4 ↔ ¬(6 ≤ d.toNat ∧ d.toNat ≤ 9))

/-- R106, R101, R102: the host sequence of the fully parameterised constructor ends, whatever the choices
of who moves, with the configuration it was given in the registers; with DONE = 1 and CFG_VALID = 1
exactly for a legal configuration, and else with ERR = 1 and the code of the first failing check. (As
for `build_config`, what the completion leaves is an inference that R106 marks as derived; logs 1 and 16.) -/
def Obligations.FullConstructorAcceptsLegalConfigurations : Prop :=
  ∀ (d : BitVec 4) (h : BitVec 2) (dl : BitVec 7) (ts : Word) (base : Int) (s : State)
    (rest : List Input), s.rstN = true → s.busy = false →
    s.inputs = buildConfigWith d h dl ts base ++ rest →
    ∃ k t, core.run k s = next t ∧ t.inputs = rest ∧ t.busy = false
      ∧ t.digits = d ∧ t.halg = h ∧ t.dlen = dl ∧ t.tstep = ts ∧ t.base = BitVec.ofInt 64 base
      ∧ (t.done = true ↔ (6 ≤ d.toNat ∧ d.toNat ≤ 9)
          ∧ (h = 3#2 → 20 ≤ dl.toNat ∧ dl.toNat ≤ 64) ∧ ts ≠ 0#32)
      ∧ t.cfgValid = t.done ∧ (t.err = true ↔ t.done = false)
      ∧ (t.errcode = 1#4 ↔ ¬(6 ≤ d.toNat ∧ d.toNat ≤ 9))
      ∧ (t.errcode = 2#4 ↔ (6 ≤ d.toNat ∧ d.toNat ≤ 9)
          ∧ h = 3#2 ∧ ¬(20 ≤ dl.toNat ∧ dl.toNat ≤ 64))
      ∧ (t.errcode = 3#4 ↔ (6 ≤ d.toNat ∧ d.toNat ≤ 9)
          ∧ (h = 3#2 → 20 ≤ dl.toNat ∧ dl.toNat ≤ 64) ∧ ts = 0#32)
end

