-- ==== Sys2Proof/Laws/State.lean ====
section
/-!
SUPPORT. Laws/State.lean: for each update of the state, each field after it. Every lemma is true by
unfolding, and none of the updates needs to be unfolded again.
-/

namespace Sys2Proof.Machine

variable (s : State)

/-! ### Acceptance (R195) -/

@[simp] theorem accept_pend (w : Word) : (s.accept w).pend = some w := rfl
@[simp] theorem accept_cycles (w : Word) : (s.accept w).cycles = 0 := rfl
@[simp] theorem accept_cfgValid (w : Word) : (s.accept w).cfgValid = s.cfgValid := rfl
@[simp] theorem accept_done (w : Word) : (s.accept w).done = false := rfl
@[simp] theorem accept_err (w : Word) : (s.accept w).err = false := rfl
@[simp] theorem accept_errcode (w : Word) : (s.accept w).errcode = 0 := rfl
@[simp] theorem accept_ovr (w : Word) : (s.accept w).ovr = s.ovr := rfl
@[simp] theorem accept_digits (w : Word) : (s.accept w).digits = s.digits := rfl
@[simp] theorem accept_halg (w : Word) : (s.accept w).halg = s.halg := rfl
@[simp] theorem accept_dlen (w : Word) : (s.accept w).dlen = s.dlen := rfl
@[simp] theorem accept_tstep (w : Word) : (s.accept w).tstep = s.tstep := rfl
@[simp] theorem accept_baseLo (w : Word) : (s.accept w).baseLo = s.baseLo := rfl
@[simp] theorem accept_baseHi (w : Word) : (s.accept w).baseHi = s.baseHi := rfl
@[simp] theorem accept_nowLo (w : Word) : (s.accept w).nowLo = s.nowLo := rfl
@[simp] theorem accept_nowHi (w : Word) : (s.accept w).nowHi = s.nowHi := rfl
@[simp] theorem accept_counterLo (w : Word) : (s.accept w).counterLo = s.counterLo := rfl
@[simp] theorem accept_counterHi (w : Word) : (s.accept w).counterHi = s.counterHi := rfl
@[simp] theorem accept_offset (w : Word) : (s.accept w).offset = s.offset := rfl
@[simp] theorem accept_bincode (w : Word) : (s.accept w).bincode = s.bincode := rfl
@[simp] theorem accept_code (w : Word) : (s.accept w).code = s.code := rfl
@[simp] theorem accept_digest (w : Word) : (s.accept w).digest = s.digest := rfl
@[simp] theorem accept_rstN (w : Word) : (s.accept w).rstN = s.rstN := rfl
@[simp] theorem accept_inputs (w : Word) : (s.accept w).inputs = s.inputs := rfl
@[simp] theorem accept_turns (w : Word) : (s.accept w).turns = s.turns := rfl
@[simp] theorem accept_answers (w : Word) : (s.accept w).answers = s.answers := rfl

/-! ### `complete()` (R12) -/

@[simp] theorem complete_pend : (s.complete).pend = none := rfl
@[simp] theorem complete_cycles : (s.complete).cycles = s.cycles := rfl
@[simp] theorem complete_cfgValid : (s.complete).cfgValid = s.cfgValid := rfl
@[simp] theorem complete_done : (s.complete).done = true := rfl
@[simp] theorem complete_err : (s.complete).err = s.err := rfl
@[simp] theorem complete_errcode : (s.complete).errcode = s.errcode := rfl
@[simp] theorem complete_ovr : (s.complete).ovr = s.ovr := rfl
@[simp] theorem complete_digits : (s.complete).digits = s.digits := rfl
@[simp] theorem complete_halg : (s.complete).halg = s.halg := rfl
@[simp] theorem complete_dlen : (s.complete).dlen = s.dlen := rfl
@[simp] theorem complete_tstep : (s.complete).tstep = s.tstep := rfl
@[simp] theorem complete_baseLo : (s.complete).baseLo = s.baseLo := rfl
@[simp] theorem complete_baseHi : (s.complete).baseHi = s.baseHi := rfl
@[simp] theorem complete_nowLo : (s.complete).nowLo = s.nowLo := rfl
@[simp] theorem complete_nowHi : (s.complete).nowHi = s.nowHi := rfl
@[simp] theorem complete_counterLo : (s.complete).counterLo = s.counterLo := rfl
@[simp] theorem complete_counterHi : (s.complete).counterHi = s.counterHi := rfl
@[simp] theorem complete_offset : (s.complete).offset = s.offset := rfl
@[simp] theorem complete_bincode : (s.complete).bincode = s.bincode := rfl
@[simp] theorem complete_code : (s.complete).code = s.code := rfl
@[simp] theorem complete_digest : (s.complete).digest = s.digest := rfl
@[simp] theorem complete_rstN : (s.complete).rstN = s.rstN := rfl
@[simp] theorem complete_inputs : (s.complete).inputs = s.inputs := rfl
@[simp] theorem complete_turns : (s.complete).turns = s.turns := rfl
@[simp] theorem complete_answers : (s.complete).answers = s.answers := rfl

/-! ### `raise CmdError` (R12, R165) -/

@[simp] theorem raiseCmdError_pend (e : CmdError) : (s.raiseCmdError e).pend = none := rfl
@[simp] theorem raiseCmdError_cycles (e : CmdError) : (s.raiseCmdError e).cycles = s.cycles := rfl
@[simp] theorem raiseCmdError_cfgValid (e : CmdError) : (s.raiseCmdError e).cfgValid = s.cfgValid := rfl
@[simp] theorem raiseCmdError_done (e : CmdError) : (s.raiseCmdError e).done = s.done := rfl
@[simp] theorem raiseCmdError_err (e : CmdError) : (s.raiseCmdError e).err = true := rfl
@[simp] theorem raiseCmdError_errcode (e : CmdError) : (s.raiseCmdError e).errcode = e.errcode := rfl
@[simp] theorem raiseCmdError_ovr (e : CmdError) : (s.raiseCmdError e).ovr = s.ovr := rfl
@[simp] theorem raiseCmdError_digits (e : CmdError) : (s.raiseCmdError e).digits = s.digits := rfl
@[simp] theorem raiseCmdError_halg (e : CmdError) : (s.raiseCmdError e).halg = s.halg := rfl
@[simp] theorem raiseCmdError_dlen (e : CmdError) : (s.raiseCmdError e).dlen = s.dlen := rfl
@[simp] theorem raiseCmdError_tstep (e : CmdError) : (s.raiseCmdError e).tstep = s.tstep := rfl
@[simp] theorem raiseCmdError_baseLo (e : CmdError) : (s.raiseCmdError e).baseLo = s.baseLo := rfl
@[simp] theorem raiseCmdError_baseHi (e : CmdError) : (s.raiseCmdError e).baseHi = s.baseHi := rfl
@[simp] theorem raiseCmdError_nowLo (e : CmdError) : (s.raiseCmdError e).nowLo = s.nowLo := rfl
@[simp] theorem raiseCmdError_nowHi (e : CmdError) : (s.raiseCmdError e).nowHi = s.nowHi := rfl
@[simp] theorem raiseCmdError_counterLo (e : CmdError) : (s.raiseCmdError e).counterLo = s.counterLo := rfl
@[simp] theorem raiseCmdError_counterHi (e : CmdError) : (s.raiseCmdError e).counterHi = s.counterHi := rfl
@[simp] theorem raiseCmdError_offset (e : CmdError) : (s.raiseCmdError e).offset = s.offset := rfl
@[simp] theorem raiseCmdError_bincode (e : CmdError) : (s.raiseCmdError e).bincode = s.bincode := rfl
@[simp] theorem raiseCmdError_code (e : CmdError) : (s.raiseCmdError e).code = s.code := rfl
@[simp] theorem raiseCmdError_digest (e : CmdError) : (s.raiseCmdError e).digest = s.digest := rfl
@[simp] theorem raiseCmdError_rstN (e : CmdError) : (s.raiseCmdError e).rstN = s.rstN := rfl
@[simp] theorem raiseCmdError_inputs (e : CmdError) : (s.raiseCmdError e).inputs = s.inputs := rfl
@[simp] theorem raiseCmdError_turns (e : CmdError) : (s.raiseCmdError e).turns = s.turns := rfl
@[simp] theorem raiseCmdError_answers (e : CmdError) : (s.raiseCmdError e).answers = s.answers := rfl

/-! ### A dropped write (R65) -/

@[simp] theorem dropWrite_pend : (s.dropWrite).pend = s.pend := rfl
@[simp] theorem dropWrite_cycles : (s.dropWrite).cycles = s.cycles := rfl
@[simp] theorem dropWrite_cfgValid : (s.dropWrite).cfgValid = s.cfgValid := rfl
@[simp] theorem dropWrite_done : (s.dropWrite).done = s.done := rfl
@[simp] theorem dropWrite_err : (s.dropWrite).err = s.err := rfl
@[simp] theorem dropWrite_errcode : (s.dropWrite).errcode = s.errcode := rfl
@[simp] theorem dropWrite_ovr : (s.dropWrite).ovr = true := rfl
@[simp] theorem dropWrite_digits : (s.dropWrite).digits = s.digits := rfl
@[simp] theorem dropWrite_halg : (s.dropWrite).halg = s.halg := rfl
@[simp] theorem dropWrite_dlen : (s.dropWrite).dlen = s.dlen := rfl
@[simp] theorem dropWrite_tstep : (s.dropWrite).tstep = s.tstep := rfl
@[simp] theorem dropWrite_baseLo : (s.dropWrite).baseLo = s.baseLo := rfl
@[simp] theorem dropWrite_baseHi : (s.dropWrite).baseHi = s.baseHi := rfl
@[simp] theorem dropWrite_nowLo : (s.dropWrite).nowLo = s.nowLo := rfl
@[simp] theorem dropWrite_nowHi : (s.dropWrite).nowHi = s.nowHi := rfl
@[simp] theorem dropWrite_counterLo : (s.dropWrite).counterLo = s.counterLo := rfl
@[simp] theorem dropWrite_counterHi : (s.dropWrite).counterHi = s.counterHi := rfl
@[simp] theorem dropWrite_offset : (s.dropWrite).offset = s.offset := rfl
@[simp] theorem dropWrite_bincode : (s.dropWrite).bincode = s.bincode := rfl
@[simp] theorem dropWrite_code : (s.dropWrite).code = s.code := rfl
@[simp] theorem dropWrite_digest : (s.dropWrite).digest = s.digest := rfl
@[simp] theorem dropWrite_rstN : (s.dropWrite).rstN = s.rstN := rfl
@[simp] theorem dropWrite_inputs : (s.dropWrite).inputs = s.inputs := rfl
@[simp] theorem dropWrite_turns : (s.dropWrite).turns = s.turns := rfl
@[simp] theorem dropWrite_answers : (s.dropWrite).answers = s.answers := rfl

/-! ### A write of STATUS (R24) -/

@[simp] theorem writeStatus_pend (v : Word) : (s.writeStatus v).pend = s.pend := rfl
@[simp] theorem writeStatus_cycles (v : Word) : (s.writeStatus v).cycles = s.cycles := rfl
@[simp] theorem writeStatus_cfgValid (v : Word) : (s.writeStatus v).cfgValid = s.cfgValid := rfl
@[simp] theorem writeStatus_done (v : Word) : (s.writeStatus v).done = s.done := rfl
@[simp] theorem writeStatus_err (v : Word) : (s.writeStatus v).err = s.err := rfl
@[simp] theorem writeStatus_errcode (v : Word) : (s.writeStatus v).errcode = s.errcode := rfl
@[simp] theorem writeStatus_ovr (v : Word) : (s.writeStatus v).ovr = (s.ovr && !v.getLsbD 8) := rfl
@[simp] theorem writeStatus_digits (v : Word) : (s.writeStatus v).digits = s.digits := rfl
@[simp] theorem writeStatus_halg (v : Word) : (s.writeStatus v).halg = s.halg := rfl
@[simp] theorem writeStatus_dlen (v : Word) : (s.writeStatus v).dlen = s.dlen := rfl
@[simp] theorem writeStatus_tstep (v : Word) : (s.writeStatus v).tstep = s.tstep := rfl
@[simp] theorem writeStatus_baseLo (v : Word) : (s.writeStatus v).baseLo = s.baseLo := rfl
@[simp] theorem writeStatus_baseHi (v : Word) : (s.writeStatus v).baseHi = s.baseHi := rfl
@[simp] theorem writeStatus_nowLo (v : Word) : (s.writeStatus v).nowLo = s.nowLo := rfl
@[simp] theorem writeStatus_nowHi (v : Word) : (s.writeStatus v).nowHi = s.nowHi := rfl
@[simp] theorem writeStatus_counterLo (v : Word) : (s.writeStatus v).counterLo = s.counterLo := rfl
@[simp] theorem writeStatus_counterHi (v : Word) : (s.writeStatus v).counterHi = s.counterHi := rfl
@[simp] theorem writeStatus_offset (v : Word) : (s.writeStatus v).offset = s.offset := rfl
@[simp] theorem writeStatus_bincode (v : Word) : (s.writeStatus v).bincode = s.bincode := rfl
@[simp] theorem writeStatus_code (v : Word) : (s.writeStatus v).code = s.code := rfl
@[simp] theorem writeStatus_digest (v : Word) : (s.writeStatus v).digest = s.digest := rfl
@[simp] theorem writeStatus_rstN (v : Word) : (s.writeStatus v).rstN = s.rstN := rfl
@[simp] theorem writeStatus_inputs (v : Word) : (s.writeStatus v).inputs = s.inputs := rfl
@[simp] theorem writeStatus_turns (v : Word) : (s.writeStatus v).turns = s.turns := rfl
@[simp] theorem writeStatus_answers (v : Word) : (s.writeStatus v).answers = s.answers := rfl

/-! ### A write of COUNTER (R143) -/

@[simp] theorem setCounter_pend (v : DWord) : (s.setCounter v).pend = s.pend := rfl
@[simp] theorem setCounter_cycles (v : DWord) : (s.setCounter v).cycles = s.cycles := rfl
@[simp] theorem setCounter_cfgValid (v : DWord) : (s.setCounter v).cfgValid = s.cfgValid := rfl
@[simp] theorem setCounter_done (v : DWord) : (s.setCounter v).done = s.done := rfl
@[simp] theorem setCounter_err (v : DWord) : (s.setCounter v).err = s.err := rfl
@[simp] theorem setCounter_errcode (v : DWord) : (s.setCounter v).errcode = s.errcode := rfl
@[simp] theorem setCounter_ovr (v : DWord) : (s.setCounter v).ovr = s.ovr := rfl
@[simp] theorem setCounter_digits (v : DWord) : (s.setCounter v).digits = s.digits := rfl
@[simp] theorem setCounter_halg (v : DWord) : (s.setCounter v).halg = s.halg := rfl
@[simp] theorem setCounter_dlen (v : DWord) : (s.setCounter v).dlen = s.dlen := rfl
@[simp] theorem setCounter_tstep (v : DWord) : (s.setCounter v).tstep = s.tstep := rfl
@[simp] theorem setCounter_baseLo (v : DWord) : (s.setCounter v).baseLo = s.baseLo := rfl
@[simp] theorem setCounter_baseHi (v : DWord) : (s.setCounter v).baseHi = s.baseHi := rfl
@[simp] theorem setCounter_nowLo (v : DWord) : (s.setCounter v).nowLo = s.nowLo := rfl
@[simp] theorem setCounter_nowHi (v : DWord) : (s.setCounter v).nowHi = s.nowHi := rfl
@[simp] theorem setCounter_counterLo (v : DWord) : (s.setCounter v).counterLo = lowWord v := rfl
@[simp] theorem setCounter_counterHi (v : DWord) : (s.setCounter v).counterHi = highWord v := rfl
@[simp] theorem setCounter_offset (v : DWord) : (s.setCounter v).offset = s.offset := rfl
@[simp] theorem setCounter_bincode (v : DWord) : (s.setCounter v).bincode = s.bincode := rfl
@[simp] theorem setCounter_code (v : DWord) : (s.setCounter v).code = s.code := rfl
@[simp] theorem setCounter_digest (v : DWord) : (s.setCounter v).digest = s.digest := rfl
@[simp] theorem setCounter_rstN (v : DWord) : (s.setCounter v).rstN = s.rstN := rfl
@[simp] theorem setCounter_inputs (v : DWord) : (s.setCounter v).inputs = s.inputs := rfl
@[simp] theorem setCounter_turns (v : DWord) : (s.setCounter v).turns = s.turns := rfl
@[simp] theorem setCounter_answers (v : DWord) : (s.setCounter v).answers = s.answers := rfl

/-! ### A bus answer (R61) -/

@[simp] theorem answer_pend (a : BusAnswer) : (s.answer a).pend = s.pend := rfl
@[simp] theorem answer_cycles (a : BusAnswer) : (s.answer a).cycles = s.cycles := rfl
@[simp] theorem answer_cfgValid (a : BusAnswer) : (s.answer a).cfgValid = s.cfgValid := rfl
@[simp] theorem answer_done (a : BusAnswer) : (s.answer a).done = s.done := rfl
@[simp] theorem answer_err (a : BusAnswer) : (s.answer a).err = s.err := rfl
@[simp] theorem answer_errcode (a : BusAnswer) : (s.answer a).errcode = s.errcode := rfl
@[simp] theorem answer_ovr (a : BusAnswer) : (s.answer a).ovr = s.ovr := rfl
@[simp] theorem answer_digits (a : BusAnswer) : (s.answer a).digits = s.digits := rfl
@[simp] theorem answer_halg (a : BusAnswer) : (s.answer a).halg = s.halg := rfl
@[simp] theorem answer_dlen (a : BusAnswer) : (s.answer a).dlen = s.dlen := rfl
@[simp] theorem answer_tstep (a : BusAnswer) : (s.answer a).tstep = s.tstep := rfl
@[simp] theorem answer_baseLo (a : BusAnswer) : (s.answer a).baseLo = s.baseLo := rfl
@[simp] theorem answer_baseHi (a : BusAnswer) : (s.answer a).baseHi = s.baseHi := rfl
@[simp] theorem answer_nowLo (a : BusAnswer) : (s.answer a).nowLo = s.nowLo := rfl
@[simp] theorem answer_nowHi (a : BusAnswer) : (s.answer a).nowHi = s.nowHi := rfl
@[simp] theorem answer_counterLo (a : BusAnswer) : (s.answer a).counterLo = s.counterLo := rfl
@[simp] theorem answer_counterHi (a : BusAnswer) : (s.answer a).counterHi = s.counterHi := rfl
@[simp] theorem answer_offset (a : BusAnswer) : (s.answer a).offset = s.offset := rfl
@[simp] theorem answer_bincode (a : BusAnswer) : (s.answer a).bincode = s.bincode := rfl
@[simp] theorem answer_code (a : BusAnswer) : (s.answer a).code = s.code := rfl
@[simp] theorem answer_digest (a : BusAnswer) : (s.answer a).digest = s.digest := rfl
@[simp] theorem answer_rstN (a : BusAnswer) : (s.answer a).rstN = s.rstN := rfl
@[simp] theorem answer_inputs (a : BusAnswer) : (s.answer a).inputs = s.inputs := rfl
@[simp] theorem answer_turns (a : BusAnswer) : (s.answer a).turns = s.turns := rfl
@[simp] theorem answer_answers (a : BusAnswer) : (s.answer a).answers = a :: s.answers := rfl

/-! ### A clk cycle (R47) -/

@[simp] theorem tick_pend : (s.tick).pend = s.pend := rfl
@[simp] theorem tick_cycles : (s.tick).cycles = if s.busy then s.cycles + 1 else s.cycles := rfl
@[simp] theorem tick_cfgValid : (s.tick).cfgValid = s.cfgValid := rfl
@[simp] theorem tick_done : (s.tick).done = s.done := rfl
@[simp] theorem tick_err : (s.tick).err = s.err := rfl
@[simp] theorem tick_errcode : (s.tick).errcode = s.errcode := rfl
@[simp] theorem tick_ovr : (s.tick).ovr = s.ovr := rfl
@[simp] theorem tick_digits : (s.tick).digits = s.digits := rfl
@[simp] theorem tick_halg : (s.tick).halg = s.halg := rfl
@[simp] theorem tick_dlen : (s.tick).dlen = s.dlen := rfl
@[simp] theorem tick_tstep : (s.tick).tstep = s.tstep := rfl
@[simp] theorem tick_baseLo : (s.tick).baseLo = s.baseLo := rfl
@[simp] theorem tick_baseHi : (s.tick).baseHi = s.baseHi := rfl
@[simp] theorem tick_nowLo : (s.tick).nowLo = s.nowLo := rfl
@[simp] theorem tick_nowHi : (s.tick).nowHi = s.nowHi := rfl
@[simp] theorem tick_counterLo : (s.tick).counterLo = s.counterLo := rfl
@[simp] theorem tick_counterHi : (s.tick).counterHi = s.counterHi := rfl
@[simp] theorem tick_offset : (s.tick).offset = s.offset := rfl
@[simp] theorem tick_bincode : (s.tick).bincode = s.bincode := rfl
@[simp] theorem tick_code : (s.tick).code = s.code := rfl
@[simp] theorem tick_digest : (s.tick).digest = s.digest := rfl
@[simp] theorem tick_rstN : (s.tick).rstN = s.rstN := rfl
@[simp] theorem tick_inputs : (s.tick).inputs = s.inputs := rfl
@[simp] theorem tick_turns : (s.tick).turns = s.turns := rfl
@[simp] theorem tick_answers : (s.tick).answers = s.answers := rfl

/-! ### A used-up choice (R196) -/

@[simp] theorem spendTurn_pend : (s.spendTurn).pend = s.pend := rfl
@[simp] theorem spendTurn_cycles : (s.spendTurn).cycles = s.cycles := rfl
@[simp] theorem spendTurn_cfgValid : (s.spendTurn).cfgValid = s.cfgValid := rfl
@[simp] theorem spendTurn_done : (s.spendTurn).done = s.done := rfl
@[simp] theorem spendTurn_err : (s.spendTurn).err = s.err := rfl
@[simp] theorem spendTurn_errcode : (s.spendTurn).errcode = s.errcode := rfl
@[simp] theorem spendTurn_ovr : (s.spendTurn).ovr = s.ovr := rfl
@[simp] theorem spendTurn_digits : (s.spendTurn).digits = s.digits := rfl
@[simp] theorem spendTurn_halg : (s.spendTurn).halg = s.halg := rfl
@[simp] theorem spendTurn_dlen : (s.spendTurn).dlen = s.dlen := rfl
@[simp] theorem spendTurn_tstep : (s.spendTurn).tstep = s.tstep := rfl
@[simp] theorem spendTurn_baseLo : (s.spendTurn).baseLo = s.baseLo := rfl
@[simp] theorem spendTurn_baseHi : (s.spendTurn).baseHi = s.baseHi := rfl
@[simp] theorem spendTurn_nowLo : (s.spendTurn).nowLo = s.nowLo := rfl
@[simp] theorem spendTurn_nowHi : (s.spendTurn).nowHi = s.nowHi := rfl
@[simp] theorem spendTurn_counterLo : (s.spendTurn).counterLo = s.counterLo := rfl
@[simp] theorem spendTurn_counterHi : (s.spendTurn).counterHi = s.counterHi := rfl
@[simp] theorem spendTurn_offset : (s.spendTurn).offset = s.offset := rfl
@[simp] theorem spendTurn_bincode : (s.spendTurn).bincode = s.bincode := rfl
@[simp] theorem spendTurn_code : (s.spendTurn).code = s.code := rfl
@[simp] theorem spendTurn_digest : (s.spendTurn).digest = s.digest := rfl
@[simp] theorem spendTurn_rstN : (s.spendTurn).rstN = s.rstN := rfl
@[simp] theorem spendTurn_inputs : (s.spendTurn).inputs = s.inputs := rfl
@[simp] theorem spendTurn_turns : (s.spendTurn).turns = if s.contested then s.turns.tail else s.turns := rfl
@[simp] theorem spendTurn_answers : (s.spendTurn).answers = s.answers := rfl

/-! ### Reset of the unit (R105, R190) -/

@[simp] theorem resetUnit_pend : (s.resetUnit).pend = none := rfl
@[simp] theorem resetUnit_cycles : (s.resetUnit).cycles = 0 := rfl
@[simp] theorem resetUnit_cfgValid : (s.resetUnit).cfgValid = false := rfl
@[simp] theorem resetUnit_done : (s.resetUnit).done = false := rfl
@[simp] theorem resetUnit_err : (s.resetUnit).err = false := rfl
@[simp] theorem resetUnit_errcode : (s.resetUnit).errcode = 0 := rfl
@[simp] theorem resetUnit_ovr : (s.resetUnit).ovr = false := rfl
@[simp] theorem resetUnit_digits : (s.resetUnit).digits = 6 := rfl
@[simp] theorem resetUnit_halg : (s.resetUnit).halg = 0 := rfl
@[simp] theorem resetUnit_dlen : (s.resetUnit).dlen = 20 := rfl
@[simp] theorem resetUnit_tstep : (s.resetUnit).tstep = 30 := rfl
@[simp] theorem resetUnit_baseLo : (s.resetUnit).baseLo = 0 := rfl
@[simp] theorem resetUnit_baseHi : (s.resetUnit).baseHi = 0 := rfl
@[simp] theorem resetUnit_nowLo : (s.resetUnit).nowLo = 0 := rfl
@[simp] theorem resetUnit_nowHi : (s.resetUnit).nowHi = 0 := rfl
@[simp] theorem resetUnit_counterLo : (s.resetUnit).counterLo = 0 := rfl
@[simp] theorem resetUnit_counterHi : (s.resetUnit).counterHi = 0 := rfl
@[simp] theorem resetUnit_offset : (s.resetUnit).offset = 0 := rfl
@[simp] theorem resetUnit_bincode : (s.resetUnit).bincode = 0 := rfl
@[simp] theorem resetUnit_code : (s.resetUnit).code = 0 := rfl
@[simp] theorem resetUnit_digest : (s.resetUnit).digest = Vector.replicate 16 0 := rfl
@[simp] theorem resetUnit_rstN : (s.resetUnit).rstN = s.rstN := rfl
@[simp] theorem resetUnit_inputs : (s.resetUnit).inputs = s.inputs := rfl
@[simp] theorem resetUnit_turns : (s.resetUnit).turns = s.turns := rfl
@[simp] theorem resetUnit_answers : (s.resetUnit).answers = s.answers := rfl

end Sys2Proof.Machine
end

