-- ==== Sys2Proof/Laws/Words.lean ====
section
/-!
SUPPORT. Laws/Words.lean: the bit fields of the model as numbers, and the command word's fields.
-/

namespace Sys2Proof

/-- Concatenation as a number. -/
theorem toNat_append {m n : Nat} (x : BitVec m) (y : BitVec n) :
    (x ++ y).toNat = x.toNat * 2 ^ n + y.toNat := by
  rw [BitVec.toNat_append, Nat.shiftLeft_eq, Nat.mul_comm, Nat.two_pow_add_eq_or_of_lt y.isLt]

theorem opField_toNat (w : Word) : (opField w).toNat = w.toNat % 256 := by
  simp [opField]

theorem rsvField_toNat (w : Word) : (rsvField w).toNat = w.toNat / 256 := by
  simp [rsvField, Nat.shiftRight_eq_div_pow]; omega

theorem rsvField_append_opField (w : Word) : rsvField w ++ opField w = w := by
  apply BitVec.eq_of_toNat_eq
  rw [toNat_append, opField_toNat, rsvField_toNat]; omega

theorem opField_append (op : BitVec 8) (rsv : BitVec 24) : opField (rsv ++ op) = op := by
  apply BitVec.eq_of_toNat_eq
  rw [opField_toNat, toNat_append]; omega

theorem rsvField_append (op : BitVec 8) (rsv : BitVec 24) : rsvField (rsv ++ op) = rsv := by
  apply BitVec.eq_of_toNat_eq
  rw [rsvField_toNat, toNat_append]; omega

/-- Every word is one of the five defined ones, or decodes to a well-formed BADCMD (R83). -/
theorem decode_cases (w : Word) :
    (w = 0#32 ∧ decode w = .nop) ∨ (w = 1#32 ∧ decode w = .config)
      ∨ (w = 2#32 ∧ decode w = .trunc) ∨ (w = 3#32 ∧ decode w = .steps)
      ∨ (w = 15#32 ∧ decode w = .reset)
      ∨ (decode w = .badcmd (opField w) (rsvField w)
          ∧ Instr.wellFormed (.badcmd (opField w) (rsvField w)) = true) := by
  have hw := rsvField_append_opField w
  unfold decode
  split
  · rename_i h; simp [Instr.wellFormed, h]
  · rename_i h
    rw [not_ne_iff.1 h] at hw
    split
    · rename_i h2; rw [h2] at hw; simp [← hw]
    split
    · rename_i h2; rw [h2] at hw; simp [← hw]
    split
    · rename_i h2; rw [h2] at hw; simp [← hw]
    split
    · rename_i h2; rw [h2] at hw; simp [← hw]
    split
    · rename_i h2; rw [h2] at hw; simp [← hw]
    simp_all [Instr.wellFormed, definedOpcodes]

/-- The halves of a 64-bit value joined give it back (R68). -/
theorem joinWords_high_low (v : DWord) : joinWords (highWord v) (lowWord v) = v := by
  apply BitVec.eq_of_toNat_eq
  simp only [joinWords, highWord, lowWord, toNat_append, BitVec.extractLsb'_toNat,
    Nat.shiftRight_eq_div_pow]
  have := v.isLt
  simp; omega

namespace Machine

/-- A byte of a word in the big-endian packing of R67, as a number. -/
theorem wordByte_toNat (w : Word) (j : Nat) (h : j < 4) :
    (wordByte w j).toNat = w.toNat / 256 ^ (3 - j) % 256 := by
  simp only [wordByte, BitVec.extractLsb'_toNat, Nat.shiftRight_eq_div_pow]
  rcases j with _ | _ | _ | _ | j <;> simp
  omega

theorem windowByte_eq (s : State) (i : Nat) (h : i < 64) :
    s.windowByte i = (s.bufferByte ⟨i, h⟩).toNat := by
  simp only [State.bufferByte]
  rw [wordByte_toNat _ _ (Nat.mod_lt _ (by decide))]
  simp only [State.windowByte, State.readReg]
  congr 3
  simp
  congr 1
  omega

theorem windowByte_lt (s : State) (i : Nat) : s.windowByte i < 256 := Nat.mod_lt _ (by decide)

theorem digestByte_toNat (s : State) (i : Nat) (h : i < 64) :
    (s.digestByte i).toNat = s.windowByte i := by
  unfold State.digestByte
  rw [dif_pos (by omega), windowByte_eq s i h]; rfl

/-- STATUS as a number (R24). -/
theorem statusWord_toNat (s : State) :
    s.statusWord.toNat
      = s.busy.toNat + 2 * s.cfgValid.toNat + 4 * s.done.toNat + 8 * s.err.toNat
        + 16 * s.errcode.toNat + 256 * s.ovr.toNat := by
  unfold State.statusWord flagBit
  simp only [toNat_append, BitVec.toNat_ofBool]
  simp; ring

/-- Bit 0 of STATUS is BUSY (R24). -/
theorem statusWord_busy (s : State) : s.statusWord.getLsbD 0 = s.busy := by
  have := statusWord_toNat s
  rw [BitVec.getLsbD, Nat.testBit_zero, this]
  cases s.busy <;> simp <;> omega

/-- CFG as a number (R31, R32). -/
theorem cfgWord_toNat (s : State) : s.cfgWord.toNat = s.halg.toNat * 16 + s.digits.toNat := by
  unfold State.cfgWord
  simp only [BitVec.toNat_setWidth, toNat_append]; omega

theorem msg0_eq_counterHi (s : State) : s.msg0 = s.counterHi := by
  apply BitVec.eq_of_toNat_eq
  unfold State.msg0 State.messageByte State.counter joinWords
  simp only [toNat_append, BitVec.extractLsb'_toNat, Nat.shiftRight_eq_div_pow]
  have := s.counterHi.isLt
  have := s.counterLo.isLt
  simp; omega

theorem msg1_eq_counterLo (s : State) : s.msg1 = s.counterLo := by
  apply BitVec.eq_of_toNat_eq
  unfold State.msg1 State.messageByte State.counter joinWords
  simp only [toNat_append, BitVec.extractLsb'_toNat, Nat.shiftRight_eq_div_pow]
  have := s.counterHi.isLt
  have := s.counterLo.isLt
  simp; omega

theorem msgOut_eq_counter (s : State) : s.msgOut = s.counter := by
  unfold State.msgOut State.counter joinWords
  rw [msg0_eq_counterHi, msg1_eq_counterLo]

end Machine

end Sys2Proof
end

