-- ==== Sys2Proof/Laws/Commands.lean ====
section
/-!
SUPPORT. Laws/Commands.lean: what the commands can do. `exec_cases` says it once for all of them; the
other lemmas give the quantities that TRUNC, STEPS and CONFIG compute.
-/

namespace Sys2Proof.Machine

open Host.Outcome (next)

/-- Every command answers a next state: nothing a command does stops the unit (R202). -/
theorem exec_next (i : Instr) (s : State) : ∃ t, exec i s = next t := by
  cases i with
  | config => simp only [exec, execConfig]; split <;> exact ⟨_, rfl⟩
  | trunc => simp only [exec, execTrunc]; split <;> exact ⟨_, rfl⟩
  | steps => simp only [exec, execSteps]; split <;> [split; skip] <;> exact ⟨_, rfl⟩
  | _ => exact ⟨_, rfl⟩

theorem cfgCheck_of_legal {s : State} (h : s.configLegal) :
    cfgCheck s.digits s.halg s.dlen s.tstep = none := by
  obtain ⟨h1, h2, h3, h4⟩ := h
  have : s.tstep.toNat ≠ 0 := fun e => h4 (BitVec.eq_of_toNat_eq e)
  unfold cfgCheck Config.digitsMin Config.digitsMax Config.digestMinBytes Config.digestMaxBytes
  rw [if_neg (by omega), if_neg (by tauto), if_neg this]

theorem legal_of_cfgCheck {s : State} (h : cfgCheck s.digits s.halg s.dlen s.tstep = none) :
    s.configLegal := by
  unfold cfgCheck Config.digitsMin Config.digitsMax Config.digestMinBytes Config.digestMaxBytes at h
  split at h; · cases h
  split at h; · cases h
  split at h; · cases h
  rename_i a b c
  exact ⟨by omega, by omega, fun e => by by_contra; exact b ⟨e, ‹_›⟩, fun e => c (by rw [e]; rfl)⟩

/-- The only errors a configuration check finds (R102). -/
theorem cfgCheck_error {d : BitVec 4} {h : BitVec 2} {dl : BitVec 7} {ts : Word} {e : CmdError}
    (he : cfgCheck d h dl ts = some e) : e = .digits ∨ e = .dlen ∨ e = .tstep := by
  unfold cfgCheck at he
  split at he; · cases he; simp
  split at he; · cases he; simp
  split at he; · cases he; simp
  cases he

theorem dlenEff_of_legal {s : State} (h : s.configLegal) :
    20 ≤ s.dlenEff.toNat ∧ s.dlenEff.toNat ≤ 64 := by
  unfold State.dlenEff
  split; · decide
  split; · decide
  split; · decide
  rename_i a b c
  apply h.2.2.1
  have := s.halg.isLt
  rw [← BitVec.toNat_inj] at a b c ⊢
  simp at a b c ⊢; omega

theorem truncOffset_le (s : State) : s.truncOffset ≤ 15 := by
  unfold State.truncOffset
  rw [BitVec.toNat_and]; exact Nat.and_le_right

theorem truncOffset_eq {s : State} (h1 : 20 ≤ s.dlenEff.toNat) (h2 : s.dlenEff.toNat ≤ 64) :
    s.truncOffset = s.windowByte (s.digestLen - 1) % 16 := by
  unfold State.truncOffset State.lastDigestByte
  rw [BitVec.toNat_and,
    show ((s.dlenEff.toNat : Int) - 1) = ((s.digestLen - 1 : Nat) : Int) by
      unfold State.digestLen; omega,
    digestByte_toNat _ _ (by unfold State.digestLen; omega)]
  exact Nat.and_two_pow_sub_one_eq_mod _ 4

/-- binCode as a sum of the four bytes (R122, R123). -/
theorem binCode_eq (s : State) :
    s.binCode = s.windowByte s.truncOffset % 128 * 2 ^ 24 + s.windowByte (s.truncOffset + 1) * 2 ^ 16
      + s.windowByte (s.truncOffset + 2) * 2 ^ 8 + s.windowByte (s.truncOffset + 3) := by
  have h := truncOffset_le s
  unfold State.binCode
  simp only [toNat_append, BitVec.toNat_and]
  rw [show (s.truncOffset : Int) + 1 = ((s.truncOffset + 1 : Nat) : Int) by omega,
    show (s.truncOffset : Int) + 2 = ((s.truncOffset + 2 : Nat) : Int) by omega,
    show (s.truncOffset : Int) + 3 = ((s.truncOffset + 3 : Nat) : Int) by omega,
    digestByte_toNat _ _ (by omega), digestByte_toNat _ _ (by omega),
    digestByte_toNat _ _ (by omega), digestByte_toNat _ _ (by omega),
    show (0x7F#8).toNat = 2 ^ 7 - 1 from rfl, Nat.and_two_pow_sub_one_eq_mod]
  ring

theorem binCode_lt (s : State) : s.binCode < 2 ^ 31 := by
  rw [binCode_eq]
  have := windowByte_lt s (s.truncOffset + 1)
  have := windowByte_lt s (s.truncOffset + 2)
  have := windowByte_lt s (s.truncOffset + 3)
  omega

/-- With a divisor that is not 0, floor division is the division of the integers (R9). -/
theorem floorDiv_eq {e : Int} {t : Word} (h : t ≠ 0#32) :
    floorDiv e t.toNat = e / (t.toNat : Int) := by
  have : t.toNat ≠ 0 := fun e => h (BitVec.eq_of_toNat_eq e)
  unfold floorDiv
  rw [if_neg this, Int.fdiv_eq_ediv_of_nonneg _ (by omega)]

/-- Everything a command other than RESET can do. -/
theorem exec_cases {i : Instr} {s t : State} (h : exec i s = next t) (hi : i ≠ .reset) :
    (i = .nop ∧ t = s.complete)
    ∨ (i = .config ∧ s.configLegal ∧ t = State.complete { s with cfgValid := true })
    ∨ (i = .config ∧ ¬s.configLegal ∧ ∃ e, (e = .digits ∨ e = .dlen ∨ e = .tstep)
        ∧ t = State.raiseCmdError e { s with cfgValid := false })
    ∨ (i = .trunc ∧ s.cfgValid = true
        ∧ t = State.complete
            { s with
              offset := BitVec.ofNat 4 s.truncOffset
              bincode := BitVec.ofNat 31 s.binCode
              code := BitVec.ofNat 30 (s.binCode % 10 ^ s.digits.toNat) })
    ∨ (i = .steps ∧ s.cfgValid = true ∧ 0 ≤ floorDiv s.elapsed s.tstep.toNat
        ∧ t = (s.setCounter (BitVec.ofInt 64 (floorDiv s.elapsed s.tstep.toNat))).complete)
    ∨ (i = .steps ∧ s.cfgValid = true ∧ floorDiv s.elapsed s.tstep.toNat < 0
        ∧ t = s.raiseCmdError .negTime)
    ∨ ((i = .trunc ∨ i = .steps) ∧ s.cfgValid = false ∧ t = s.raiseCmdError .noCfg)
    ∨ ((∃ op rsv, i = .badcmd op rsv) ∧ t = s.raiseCmdError .badCmd) := by
  cases i with
  | nop => cases h; simp
  | reset => exact absurd rfl hi
  | badcmd op rsv => cases h; simp
  | config =>
    simp only [exec, execConfig] at h
    split at h
    · rename_i e he
      cases h
      have hnl : ¬s.configLegal := fun hl => by rw [cfgCheck_of_legal hl] at he; cases he
      exact Or.inr (Or.inr (Or.inl ⟨rfl, hnl, e, cfgCheck_error he, rfl⟩))
    · rename_i he
      cases h
      exact Or.inr (Or.inl ⟨rfl, legal_of_cfgCheck he, rfl⟩)
  | trunc =>
    simp only [exec, execTrunc] at h
    split at h <;> rename_i hv <;> cases h <;> simp [hv]
  | steps =>
    simp only [exec, execSteps] at h
    split at h
    · rename_i hv
      split at h
      · rename_i hq; cases h; simp [hv, hq]
      · rename_i hq
        cases h
        exact Or.inr (Or.inr (Or.inr (Or.inr (Or.inl ⟨rfl, hv, by omega, rfl⟩))))
    · rename_i hv; cases h; simp [hv]

/-- No command touches what is outside the unit, and after each one PEND is empty (R196). -/
theorem exec_outside {i : Instr} {s t : State} (h : exec i s = next t) :
    t.inputs = s.inputs ∧ t.turns = s.turns ∧ t.answers = s.answers ∧ t.rstN = s.rstN
      ∧ t.pend = none := by
  by_cases hi : i = .reset
  · subst hi; cases h; exact ⟨rfl, rfl, rfl, rfl, rfl⟩
  rcases exec_cases h hi with ⟨-, rfl⟩ | ⟨-, -, rfl⟩ | ⟨-, -, e, -, rfl⟩ | ⟨-, -, rfl⟩ | ⟨-, -, -, rfl⟩
    | ⟨-, -, -, rfl⟩ | ⟨-, -, rfl⟩ | ⟨-, rfl⟩ <;> exact ⟨rfl, rfl, rfl, rfl, rfl⟩

end Sys2Proof.Machine
end

