-- ==== Sys2Proof/Laws/Bus.lean ====
section
/-!
SUPPORT. Laws/Bus.lean: what a transaction and the other inputs can do. `busStep_cases` and
`performInput_cases` say it once.
-/

namespace Sys2Proof.Machine

open Host.Outcome (next)

theorem andThen_eq_next {r : Result} {f : State → State} {t : State} :
    r.andThen f = next t ↔ ∃ u, r = next u ∧ t = f u := by
  cases r <;> simp [Result.andThen, eq_comm]

/-- R62 with the address as a number. -/
theorem legal_iff (t : Txn) : t.legal = true ↔ t.size = .word ∧ t.addr.toNat % 4 = 0 := by
  have : t.addr.extractLsb' 0 2 = 0#2 ↔ t.addr.toNat % 4 = 0 := by
    rw [← BitVec.toNat_inj]; simp
  simp [Txn.legal, this]

theorem addr_aligned (r : Reg) : r.addr.toNat % 4 = 0 := by
  cases r with
  | digest k => revert k; decide
  | _ => rfl

theorem regAt_addr (r : Reg) : regAt r.addr = some r := by
  cases r with
  | digest k => revert k; decide
  | _ => rfl

theorem addr_of_regAt (a : Offset) (r : Reg) (hr : regAt a = some r) : r.addr = a := by
  have h : ∀ a : Offset, ((regAt a).map Reg.addr).getD a = a := by decide
  have := h a
  rw [hr] at this; exact this

theorem readOffset_addr (s : State) (r : Reg) : s.readOffset r.addr = s.readReg r := by
  simp [State.readOffset, regAt_addr]

/-- A claim about every offset follows from the same claim about every register. -/
theorem readsAsBefore_of_regs {l : List Reg} {s t : State}
    (h : ∀ r : Reg, r ∉ l → t.readReg r = s.readReg r) : readsAsBefore l s t := by
  intro a ha
  unfold State.readOffset
  split
  · rename_i r hr
    exact h r (fun hm => ha r hm (addr_of_regAt _ _ hr))
  · rfl

/-- The answer of a transaction changes no register. -/
@[simp] theorem readReg_answer (s : State) (a : BusAnswer) (r : Reg) :
    (s.answer a).readReg r = s.readReg r := by
  cases r <;> rfl

theorem busStep_read {s : State} (hr : s.rstN = true) (a : Offset) (v : Word)
    (ha : a.toNat % 4 = 0) :
    busStep ⟨.read, a, .word, v⟩ s = next (s.answer (readAnswer (s.readOffset a))) := by
  have := (legal_iff ⟨.read, a, .word, v⟩).2 ⟨rfl, ha⟩
  simp [busStep, hr, this]

theorem busStep_write {s : State} (hr : s.rstN = true) (a : Offset) (v : Word)
    (ha : a.toNat % 4 = 0) :
    busStep ⟨.write, a, .word, v⟩ s = (legalWrite a v s).andThen (State.answer writeAnswer) := by
  have := (legal_iff ⟨.write, a, .word, v⟩).2 ⟨rfl, ha⟩
  simp [busStep, hr, this]

/-- A write of a named register, by its access (R20, R64, R65). -/
theorem legalWrite_addr (s : State) (r : Reg) (v : Word) :
    legalWrite r.addr v s
      = match r.access with
        | .readOnly => next s
        | .writeOneClears => next (s.writeStatus v)
        | .writeOnly => cmdWrite v s
        | .readWrite => if s.busy then next s.dropWrite else next (s.storeReg r v) := by
  cases h : r.access <;> simp [legalWrite, regAt_addr, h]

theorem busStep_write_addr {s : State} (hr : s.rstN = true) (r : Reg) (v : Word) :
    busStep ⟨.write, r.addr, .word, v⟩ s
      = (legalWrite r.addr v s).andThen (State.answer writeAnswer) :=
  busStep_write hr _ _ (addr_aligned r)

theorem legalWrite_next (a : Offset) (v : Word) (s : State) : ∃ t, legalWrite a v s = next t := by
  unfold legalWrite
  split
  · exact ⟨_, rfl⟩
  · split
    · exact ⟨_, rfl⟩
    · exact ⟨_, rfl⟩
    · unfold cmdWrite
      split
      · exact exec_next _ _
      · split <;> exact ⟨_, rfl⟩
    · split <;> exact ⟨_, rfl⟩

/-- What storing an operand register leaves alone (R33). -/
theorem storeReg_frame (r : Reg) (v : Word) (s : State) :
    let t := s.storeReg r v
    t.pend = s.pend ∧ t.cycles = s.cycles ∧ t.done = s.done ∧ t.err = s.err ∧ t.errcode = s.errcode
      ∧ t.ovr = s.ovr ∧ t.offset = s.offset ∧ t.bincode = s.bincode ∧ t.code = s.code
      ∧ t.rstN = s.rstN ∧ t.inputs = s.inputs ∧ t.turns = s.turns ∧ t.answers = s.answers := by
  cases r <;> simp [State.storeReg]

/-- The registers whose value a store to a register may change. -/
def viewsOf : Reg → List Reg
  | .cfg => [.cfg, .dlenEff, .status]
  | .dlen => [.dlen, .dlenEff, .status]
  | .tstep => [.tstep, .status]
  | .baseLo => [.baseLo, .status]
  | .baseHi => [.baseHi, .status]
  | .counterLo => [.counterLo, .msg1]
  | .counterHi => [.counterHi, .msg0]
  | r => [r]

theorem readReg_storeReg_of_not_view (s : State) (r q : Reg) (v : Word) (h : q ∉ viewsOf r) :
    (s.storeReg r v).readReg q = s.readReg q := by
  have hd : ∀ k j : Fin 16, j ≠ k → (s.digest.set k v)[j] = s.digest[j] := by
    intro k j hne
    simp only [Fin.getElem_fin, Vector.getElem_set]
    exact if_neg (fun e => hne (Fin.ext e.symm))
  cases r <;> cases q <;>
    first
    | (simp only [State.readReg, msg0_eq_counterHi, msg1_eq_counterLo, State.storeReg,
        State.statusWord, State.busy, State.cfgWord, State.dlenEff]; done)
    | (exfalso; apply h; simp [viewsOf]; done)
    | (refine hd _ _ ?_; simpa [viewsOf] using h)
    | rfl

/-- Everything a transaction can do, apart from its answer (R60 to R65). -/
theorem busStep_cases {t : Txn} {s u : State} (h : busStep t s = next u) :
    s.rstN = true ∧ ∃ a,
      (∃ v, t = ⟨.write, Reg.status.addr, .word, v⟩ ∧ u = (s.writeStatus v).answer a)
      ∨ (t = cmdTxn (encode .reset) ∧ u = s.resetUnit.answer a)
      ∨ (∃ w, t = cmdTxn w ∧ w ≠ encode .reset ∧ s.busy = false ∧ u = (s.accept w).answer a)
      ∨ (∃ r v, t = ⟨.write, Reg.addr r, .word, v⟩ ∧ r.access = .readWrite ∧ s.busy = false
          ∧ u = (s.storeReg r v).answer a)
      ∨ (∃ b v, t = ⟨.write, b, .word, v⟩ ∧ s.busy = true ∧ u = s.dropWrite.answer a)
      ∨ u = s.answer a := by
  unfold busStep at h
  split at h; · cases h
  rename_i hr
  refine ⟨by simpa using hr, ?_⟩
  split at h
  · cases h; exact ⟨busErrorAnswer, by simp⟩
  rename_i hl
  have hsz := ((legal_iff t).1 (by simpa using hl)).1
  split at h
  · cases h; exact ⟨readAnswer (s.readOffset t.addr), by simp⟩
  rename_i hk
  obtain ⟨x, hx, rfl⟩ := andThen_eq_next.1 h
  refine ⟨writeAnswer, ?_⟩
  obtain ⟨k, b, z, v⟩ := t
  simp only at hk hsz hx
  subst hk hsz
  unfold legalWrite at hx
  split at hx
  · cases hx; simp
  rename_i r hra
  obtain rfl := addr_of_regAt _ _ hra
  split at hx
  · cases hx; simp
  · rename_i hacc
    obtain rfl : r = .status := by cases r <;> first | rfl | cases hacc
    cases hx
    exact Or.inl ⟨_, rfl, rfl⟩
  · rename_i hacc
    obtain rfl : r = .cmd := by cases r <;> first | rfl | cases hacc
    unfold cmdWrite at hx
    split at hx
    · rename_i he
      subst he; cases hx
      exact Or.inr (Or.inl ⟨rfl, rfl⟩)
    · split at hx
      · cases hx
        exact Or.inr (Or.inr (Or.inr (Or.inr (Or.inl ⟨_, _, rfl, ‹_›, rfl⟩))))
      · cases hx
        exact Or.inr (Or.inr (Or.inl ⟨_, rfl, ‹_›, by simpa using ‹¬s.busy = true›, rfl⟩))
  · rename_i hacc
    split at hx
    · cases hx
      exact Or.inr (Or.inr (Or.inr (Or.inr (Or.inl ⟨_, _, rfl, ‹_›, rfl⟩))))
    · cases hx
      exact Or.inr (Or.inr (Or.inr (Or.inl
        ⟨_, _, rfl, hacc, by simpa using ‹¬s.busy = true›, rfl⟩)))

/-- Everything an input can do. -/
theorem performInput_cases {i : Input} {s u : State} (h : performInput i s = next u) :
    (∃ t, i = .bus t ∧ busStep t s = next u)
    ∨ (i = .wait ∧ s.rstN = true ∧ s.busy = true
        ∧ u = { s.answer (readAnswer s.statusWord) with inputs := .wait :: s.inputs })
    ∨ (i = .wait ∧ s.rstN = true ∧ s.busy = false ∧ u = s.answer (readAnswer s.statusWord))
    ∨ (i = .clk ∧ u = s.tick)
    ∨ (i = .rst true ∧ u = { s with rstN := true })
    ∨ (i = .rst false ∧ u = { s.resetUnit with rstN := false }) := by
  cases i with
  | bus t => exact Or.inl ⟨t, rfl, h⟩
  | clk => cases h; simp
  | rst b => cases h; cases b <;> simp [State.setRstN]
  | wait =>
    right
    obtain ⟨x, hx, rfl⟩ := andThen_eq_next.1 h
    have hr : s.rstN = true := (busStep_cases hx).1
    have hread := busStep_read (s := s) hr (Reg.addr .status) 0 (by decide)
    rw [readOffset_addr] at hread
    obtain rfl : x = s.answer (readAnswer s.statusWord) := by
      have h2 : next x = next _ := hx.symm.trans hread
      cases h2; rfl
    cases hb : s.busy
    · right; left; simp only [statusWord_busy, hb]; simp [hr]
    · left; simp only [statusWord_busy, hb]; simp [hr]

end Sys2Proof.Machine
end

