-- ==== Sys2Proof/Laws/Step.lean ====
section
/-!
SUPPORT. Laws/Step.lean: what one step can do (`step_cases`), who moves, and how runs go together.
-/

namespace Sys2Proof.Machine

open Host.Outcome (next)

theorem mover_sequencer {s : State} (hr : s.rstN = true) (hb : s.busy = true)
    (h : s.inputs = [] ∨ s.turns.headD .sequencer = .sequencer) : s.mover = some .sequencer := by
  unfold State.mover State.contested State.sequencerEnabled
  rw [hr, hb]
  rcases h with h | h
  · simp [h]
  · cases hin : s.inputs.isEmpty
    · simp; simpa using h
    · simp

theorem pending_of_mover {s : State} (h : s.mover = some .sequencer) :
    s.rstN = true ∧ ∃ w, s.pend = some w := by
  unfold State.mover State.contested State.sequencerEnabled at h
  by_cases hr : s.rstN = true ∧ s.busy = true
  · exact ⟨hr.1, Option.isSome_iff_exists.1 hr.2⟩
  · have : (s.rstN && s.busy) = false := by simpa using hr
    simp [this] at h

theorem inputs_of_mover {s : State} (h : s.mover = some .host) :
    ∃ i rest, s.inputs = i :: rest := by
  cases hin : s.inputs with
  | cons i rest => exact ⟨_, _, rfl⟩
  | nil => simp [State.mover, State.contested, hin] at h

/-- Everything one step can do: nothing, the completion of the pending command, or one input. -/
theorem step_cases {s t : State} (h : step s = next t) :
    (s.mover = none ∧ t = s)
    ∨ (∃ w, s.mover = some .sequencer ∧ s.pend = some w ∧ exec (decode w) s.spendTurn = next t)
    ∨ (∃ i rest, s.mover = some .host ∧ s.inputs = i :: rest
        ∧ performInput i { s.spendTurn with inputs := rest } = next t) := by
  unfold step at h
  split at h
  · rename_i hm
    obtain ⟨-, w, hw⟩ := pending_of_mover hm
    simp only [sequencerStep, spendTurn_pend, hw] at h
    exact Or.inr (Or.inl ⟨w, hm, hw, h⟩)
  · rename_i hm
    obtain ⟨i, rest, hi⟩ := inputs_of_mover hm
    simp only [hostStep, spendTurn_inputs, hi] at h
    exact Or.inr (Or.inr ⟨i, rest, hm, hi, h⟩)
  · cases h; exact Or.inl ⟨‹_›, rfl⟩

/-- On an idle unit the next input is performed. -/
theorem step_idle_host {s : State} {i : Input} {rest : List Input} (hb : s.busy = false)
    (hi : s.inputs = i :: rest) : step s = performInput i { s with inputs := rest } := by
  have hm : s.mover = some .host := by
    simp [State.mover, State.contested, State.sequencerEnabled, hb, hi]
  have hs : s.spendTurn = s := by
    simp [State.spendTurn, State.contested, State.sequencerEnabled, hb]
  unfold step
  rw [hm]
  simp only [hostStep, hs, hi]

theorem core_run_succ (M : Host.Core) {s u : M.State} (h : M.step s = .next u) (k : Nat) :
    M.run (k + 1) s = M.run k u := by
  rw [Host.Core.run, h]

/-- A run of one more step. -/
theorem run_succ {s u : State} (h : step s = next u) (k : Nat) :
    core.run (k + 1) s = core.run k u :=
  core_run_succ core h k

theorem core_run_add (M : Host.Core) {s t : M.State} (j k : Nat) (h : M.run j s = .next t) :
    M.run (j + k) s = M.run k t := by
  induction j generalizing s with
  | zero => rw [Host.Core.run] at h; cases h; simp
  | succ j ih =>
    rw [Host.Core.run] at h
    rw [show j + 1 + k = (j + k) + 1 by omega, Host.Core.run]
    split at h
    · rename_i u hu; exact ih h
    · cases h
    · cases h

/-- Two runs one after the other. -/
theorem run_add {s t u : State} {j k : Nat} (h : core.run j s = next t) (h2 : core.run k t = next u) :
    core.run (j + k) s = next u :=
  (core_run_add core j k h).trans h2

end Sys2Proof.Machine
end

