-- ==== Sys2Proof/Laws/HostProgram.lean ====
section
/-!
SUPPORT. Laws/HostProgram.lean: what the writes of the host notation put into the registers.
-/

namespace Sys2Proof.Machine

open Host.Outcome (next)

/-- The word of `SETCFG d, h` as a number (R87). -/
theorem setCfg_word_toNat (d : BitVec 4) (h : BitVec 2) :
    ((h.setWidth 32 <<< 4) ||| d.setWidth 32 : Word).toNat = h.toNat * 16 + d.toNat := by
  have hd := d.isLt
  have hh := h.isLt
  rw [BitVec.toNat_or, BitVec.toNat_shiftLeft, BitVec.toNat_setWidth, BitVec.toNat_setWidth,
    Nat.mod_eq_of_lt (a := d.toNat) (by omega), Nat.mod_eq_of_lt (a := h.toNat) (by omega),
    Nat.shiftLeft_eq, Nat.mod_eq_of_lt (by omega), Nat.mul_comm,
    ← Nat.two_pow_add_eq_or_of_lt (i := 4) hd]

/-- `SETCFG d, h` stores d in DIGITS and h in HALG (R31, R32, R87). -/
theorem setCfg_fields (d : BitVec 4) (h : BitVec 2) :
    ((h.setWidth 32 <<< 4) ||| d.setWidth 32 : Word).extractLsb' 0 4 = d
      ∧ ((h.setWidth 32 <<< 4) ||| d.setWidth 32 : Word).extractLsb' 4 2 = h := by
  have hd := d.isLt
  have hh := h.isLt
  constructor <;> apply BitVec.eq_of_toNat_eq <;>
    rw [BitVec.extractLsb'_toNat, setCfg_word_toNat, Nat.shiftRight_eq_div_pow] <;> omega

/-- A `WR` of an operand register is one step of an idle unit, and stores the value (R33, R86). -/
theorem step_wr {s : State} {r : Reg} {v : Word} {rest : List Input} (hr : s.rstN = true)
    (hb : s.busy = false) (ha : r.access = .readWrite) (hi : s.inputs = wr r v :: rest) :
    step s = next ((State.storeReg r v { s with inputs := rest }).answer writeAnswer) := by
  rw [step_idle_host hb hi]
  show busStep ⟨.write, r.addr, .word, v⟩ { s with inputs := rest } = _
  rw [busStep_write_addr (by exact hr), legalWrite_addr, ha]
  have hb' : State.busy { s with inputs := rest } = false := hb
  simp [hb', Result.andThen]

end Sys2Proof.Machine
end

