-- ==== Sys2Proof/Laws/PerInstr.lean ====
section
/-!
SUPPORT. Laws/PerInstr.lean: a statement for each command as syntax. Family Fields: the two fields of a
command's word (R80) are those of the table (R82), and for BADCMD its own.
-/

namespace Sys2Proof.Laws.Fields

/-- OP and RSV of each command (R80, R82, R85). -/
def expected : Instr → BitVec 8 × BitVec 24
  | .nop => (0x00, 0)
  | .config => (0x01, 0)
  | .trunc => (0x02, 0)
  | .steps => (0x03, 0)
  | .reset => (0x0F, 0)
  | .badcmd op rsv => (op, rsv)

def Statement (i : Instr) : Prop := (opField (encode i), rsvField (encode i)) = expected i

theorem nop : Statement .nop := by unfold Statement; decide
theorem config : Statement .config := by unfold Statement; decide
theorem trunc : Statement .trunc := by unfold Statement; decide
theorem steps : Statement .steps := by unfold Statement; decide
theorem reset : Statement .reset := by unfold Statement; decide
theorem badcmd (op : BitVec 8) (rsv : BitVec 24) : Statement (.badcmd op rsv) := by
  simp [Statement, expected, encode, opField_append, rsvField_append]

end Sys2Proof.Laws.Fields
end

