-- ==== Sys2Proof/Tests/Slice0.lean ====
section
/-!
SUPPORT. Tests/Slice0.lean: the smoke tests of WellFormed, of the decoder and of single steps, with
expected values from spec/95_test_vectors.md; and for every statement with hypotheses a state and
operands that meet them (`witness_<Name>`).
-/

namespace Sys2Proof.Tests

open Sys2Proof.Machine
open Host.Outcome (next)

/-- The outcome goes on in a state with the property. -/
def nextIs (r : Result) (p : State → Bool) : Bool :=
  match r with
  | .next s => p s
  | .fault _ => false
  | .refused _ => false

/-! ## Helpers: small states -/

/-- A command pending on the reset unit. -/
def pending (i : Instr) : State := { State.reset with pend := some (encode i) }

/-- A valid configuration with these DIGITS and HALG. -/
def configured (d : BitVec 4) (h : BitVec 2) : State :=
  { State.reset with digits := d, halg := h, cfgValid := true }

/-- The state with these digest words from DIGEST_k on. -/
def load (k : Nat) (ws : List Word) (s : State) : State :=
  match ws with
  | [] => s
  | w :: rest => load (k + 1) rest { s with digest := s.digest.set (Fin.ofNat 16 k) w }

/-- The digest of 95_test_vectors.md P1. -/
def digestP1 : List Word := [0x75A48A19, 0xD4CBE100, 0x644E8AC1, 0x397EEA74, 0x7A2D33AB]

/-- The bytes of T6a. -/
def digestT6 : List Word :=
  [0, 0x00DEADBE, 0xEF000000, 0, 0x0000000F, 0, 0, 0, 0, 0, 0, 0, 0, 0, 0, 0x00000005]

/-- The operands of STEPS. -/
def atTime (now base : Int) (t : Word) : State :=
  { State.reset with
    cfgValid := true, tstep := t
    nowLo := lowWord (BitVec.ofInt 64 now), nowHi := highWord (BitVec.ofInt 64 now)
    baseLo := lowWord (BitVec.ofInt 64 base), baseHi := highWord (BitVec.ofInt 64 base) }

/-- The configuration of a vector of 95_test_vectors.md 2.1. -/
def configVector (cfg : Word) (dl : BitVec 7) (t : Word) : State :=
  { State.reset with
    digits := cfg.extractLsb' 0 4, halg := cfg.extractLsb' 4 2, dlen := dl, tstep := t }

/-- A legal write of a word. -/
def writeAt (a : Offset) (v : Word) : Txn := ⟨.write, a, .word, v⟩

/-- A legal read. -/
def readAt (a : Offset) : Txn := ⟨.read, a, .word, 0⟩

/-! ## Well-formedness: each ill-formed term is refused (R85) -/

theorem test_wf_badcmd_nop : Instr.wellFormed (.badcmd 0x00 0) = false := by decide
theorem test_wf_badcmd_config : Instr.wellFormed (.badcmd 0x01 0) = false := by decide
theorem test_wf_badcmd_trunc : Instr.wellFormed (.badcmd 0x02 0) = false := by decide
theorem test_wf_badcmd_steps : Instr.wellFormed (.badcmd 0x03 0) = false := by decide
theorem test_wf_badcmd_reset : Instr.wellFormed (.badcmd 0x0F 0) = false := by decide
theorem test_wf_accepts :
    Instr.wellFormed (.badcmd 0x0F 1) = true ∧ Instr.wellFormed (.badcmd 0x04 0) = true
      ∧ Instr.wellFormed .reset = true := by decide

/-! ## Decoding: the words of R82, R84, R85 written out -/

theorem test_decode_nop : decode 0b00000000000000000000000000000000#32 = .nop := by decide
theorem test_decode_config : decode 0b00000000000000000000000000000001#32 = .config := by decide
theorem test_decode_trunc : decode 0b00000000000000000000000000000010#32 = .trunc := by decide
theorem test_decode_steps : decode 0b00000000000000000000000000000011#32 = .steps := by decide
theorem test_decode_reset : decode 0b00000000000000000000000000001111#32 = .reset := by decide
theorem test_decode_badcmd :
    decode 0b00000000000000000000000000000100#32 = .badcmd 0x04 0
      ∧ decode 0b00000000000000000000000000001110#32 = .badcmd 0x0E 0
      ∧ decode 0b00000000000000000000000000010000#32 = .badcmd 0x10 0
      ∧ decode 0b00000000000000000000000011111111#32 = .badcmd 0xFF 0
      ∧ decode 0b00000000000000000000000100000000#32 = .badcmd 0x00 1
      ∧ decode 0b10000000000000000000000000001111#32 = .badcmd 0x0F 0x800000 := by decide
theorem test_decodeTableWord :
    decodeTableWord 32 3 = some .steps ∧ decodeTableWord 32 0x10F = some (.badcmd 0x0F 1)
      ∧ decodeTableWord 64 3 = none := by decide
theorem test_withFetchWord :
    nextIs (step (State.reset.withFetchWord 32 1)) (fun t => t.statusWord == 0x00000006#32) = true
      ∧ nextIs (step ((pending .trunc).withFetchWord 32 15)) (fun t => t.statusWord == 0#32) = true := by
  decide

/-! ## Reset and the register window (2.4) -/

theorem test_reset_values :
    State.reset.readOffset 0x00 = 0x4F540100#32 ∧ State.reset.readOffset 0x0C = 0x00000006#32
      ∧ State.reset.readOffset 0x10 = 0x00000014#32 ∧ State.reset.readOffset 0x14 = 0x0000001E#32
      ∧ State.reset.readOffset 0x44 = 0x00000014#32 ∧ State.reset.readOffset 0x80 = 0#32 := by decide
/-- B3, B4. -/
theorem test_bus_error :
    nextIs (busStep (readAt 0x0A) State.reset) (fun t => t.answers == [⟨some 0, true⟩]) = true
      ∧ nextIs (busStep ⟨.write, 0x0C, .byte, 9⟩ (configured 6 0))
          (fun t => t.answers == [⟨some 0, true⟩] && t.digits == 6#4 && t.cfgValid) = true := by decide
/-- B5 to B8. -/
theorem test_ignored_writes :
    nextIs (busStep (writeAt 0x00 0) State.reset) (fun t => t.readOffset 0x00 == 0x4F540100#32) = true
      ∧ nextIs (busStep (writeAt 0x40 1) (pending .trunc)) (fun t => !t.ovr && t.code == 0) = true
      ∧ nextIs (busStep (writeAt 0x48 1) (pending .trunc)) (fun t => !t.ovr) = true := by decide
/-- B9. -/
theorem test_dropped_write :
    nextIs (busStep (writeAt 0x20 7) (pending .trunc))
      (fun t => t.ovr && t.nowLo == 0 && t.answers == [⟨none, false⟩]) = true := by decide
/-- B10, B11. -/
theorem test_status_write :
    nextIs (busStep (writeAt 0x08 0x00000100) { pending .trunc with ovr := true })
        (fun t => !t.ovr && t.busy) = true
      ∧ nextIs (busStep (writeAt 0x08 0xFFFFFEFF) { State.reset with ovr := true })
        (fun t => t.ovr) = true := by decide
/-- B12. -/
theorem test_digest_packing :
    nextIs (busStep (writeAt 0x80 0x11223344) State.reset) (fun t =>
      t.bufferByte 0 == 0x11#8 && t.bufferByte 1 == 0x22#8 && t.bufferByte 2 == 0x33#8
        && t.bufferByte 3 == 0x44#8) = true := by decide
/-- B13. -/
theorem test_dlen_write :
    nextIs (busStep (writeAt 0x10 0xFFFFFFFF) State.reset) (fun t =>
        t.readOffset 0x10 == 0x7F#32 && t.readOffset 0x44 == 0x14#32) = true
      ∧ nextIs (busStep (writeAt 0x10 0xFFFFFFFF) { State.reset with halg := 3 }) (fun t =>
        t.readOffset 0x44 == 0x7F#32) = true := by decide
/-- C19, C20. -/
theorem test_cfg_write :
    nextIs (busStep (writeAt 0x0C 0xFFFFFFFF) State.reset) (fun t => t.readOffset 0x0C == 0x3F#32) = true
      ∧ nextIs (busStep (writeAt 0x14 30) { configured 6 0 with done := true })
        (fun t => t.statusWord == 0x00000004#32) = true := by decide
/-- T11. -/
theorem test_message :
    State.msgOut { State.reset with counterHi := 0x01234567, counterLo := 0x89ABCDEF }
        = 0x0123456789ABCDEF#64
      ∧ State.messageByte { State.reset with counterHi := 0x01234567, counterLo := 0x89ABCDEF } 1
        = 0x23#8 := by decide

/-! ## Commands, one step each -/

/-- C22. -/
theorem test_nop :
    nextIs (step { pending .nop with ovr := false })
      (fun t => t.statusWord == 0x00000004#32) = true := by decide
/-- C2, C3, C4, C5. -/
theorem test_config_digits :
    nextIs (execConfig (configVector 0x05 20 30)) (fun t => t.statusWord == 0x18#32) = true
      ∧ nextIs (execConfig (configVector 0x06 20 30)) (fun t => t.statusWord == 0x06#32) = true
      ∧ nextIs (execConfig (configVector 0x09 20 30)) (fun t => t.statusWord == 0x06#32) = true
      ∧ nextIs (execConfig (configVector 0x0A 20 30)) (fun t => t.statusWord == 0x18#32) = true := by
  decide
/-- C8 to C11, C13, C14, C17, C18. -/
theorem test_config_dlen_tstep :
    nextIs (execConfig (configVector 0x36 19 30)) (fun t => t.statusWord == 0x28#32) = true
      ∧ nextIs (execConfig (configVector 0x36 20 30)) (fun t => t.statusWord == 0x06#32) = true
      ∧ nextIs (execConfig (configVector 0x36 64 30)) (fun t => t.statusWord == 0x06#32) = true
      ∧ nextIs (execConfig (configVector 0x36 65 30)) (fun t => t.statusWord == 0x28#32) = true
      ∧ nextIs (execConfig (configVector 0x06 0 30)) (fun t => t.statusWord == 0x06#32) = true
      ∧ nextIs (execConfig (configVector 0x06 20 0)) (fun t => t.statusWord == 0x38#32) = true
      ∧ nextIs (execConfig (configVector 0x36 19 0)) (fun t => t.statusWord == 0x28#32) = true
      ∧ nextIs (execConfig (configVector 0x3A 19 0)) (fun t => t.statusWord == 0x18#32) = true := by
  decide
/-- P1, T2a, T2d. -/
theorem test_trunc_sha1 :
    nextIs (execTrunc (load 0 digestP1 (configured 6 0))) (fun t =>
        t.offset == 11 && t.bincode == 0x41397EEA && t.code == 287082) = true
      ∧ nextIs (execTrunc (load 0 (List.replicate 5 0xFFFFFFFF) (configured 6 0))) (fun t =>
        t.offset == 15 && t.bincode == 0x7FFFFFFF && t.code == 483647) = true
      ∧ nextIs (execTrunc (load 0 (List.replicate 5 0xFFFFFFFF) (configured 9 0))) (fun t =>
        t.code == 147483647) = true := by decide
/-- T6a, T6b, T9. -/
theorem test_trunc_length :
    nextIs (execTrunc (load 0 digestT6 (configured 9 2))) (fun t =>
        t.offset == 5 && t.bincode == 0x5EADBEEF && t.code == 588444911) = true
      ∧ nextIs (execTrunc (load 0 digestT6 (configured 9 0))) (fun t =>
        t.offset == 15 && t.bincode == 0 && t.code == 0) = true
      ∧ nextIs (execTrunc (load 0 digestP1 State.reset)) (fun t =>
        t.statusWord == 0x48#32 && t.code == 0) = true := by decide
/-- S4, S8, S11, S13, S15. -/
theorem test_steps :
    nextIs (execSteps (atTime 59 0 30)) (fun t => t.counter == 1) = true
      ∧ nextIs (execSteps (atTime (-1) (-31) 30)) (fun t => t.counter == 1) = true
      ∧ nextIs (execSteps (atTime (2 ^ 63 - 1) (-2 ^ 63) 1)) (fun t =>
        t.counter == 0xFFFFFFFFFFFFFFFF#64) = true
      ∧ nextIs (execSteps (atTime (2 ^ 63 - 1) (-2 ^ 63) 0xFFFFFFFF)) (fun t =>
        t.counter == 0x0000000100000001#64) = true
      ∧ nextIs (execSteps (atTime 20000000000 0 30)) (fun t => t.counter == 0x27BC86AA#64) = true := by
  decide
/-- S7, S14, S16. -/
theorem test_steps_errors :
    nextIs (execSteps (atTime 999 1000 30)) (fun t =>
        t.statusWord == 0x5A#32 && t.counter == 0) = true
      ∧ nextIs (execSteps (atTime (-2 ^ 63) (2 ^ 63 - 1) 1)) (fun t => t.statusWord == 0x5A#32) = true
      ∧ nextIs (execSteps State.reset) (fun t => t.statusWord == 0x48#32) = true := by decide
/-- C26, 60_exceptions.md R164. -/
theorem test_reset_while_busy :
    nextIs (busStep (cmdTxn 0x0000000F) { load 0 digestP1 (configured 9 3) with pend := some 2#32 })
      (fun t => t.readOffset 0x08 == 0 && t.readOffset 0x0C == 6 && t.readOffset 0x80 == 0
        && !t.busy) = true := by decide
/-- C24: a word whose low byte is RESET's is not RESET. -/
theorem test_badcmd :
    nextIs (busStep (cmdTxn 0x0000010F) (configured 9 0)) (fun t =>
        nextIs (sequencerStep t) (fun u => u.statusWord == 0x6A#32 && u.digits == 9)) = true
      ∧ nextIs (execBadcmd 0x04 0 State.reset) (fun t => t.statusWord == 0x68#32) = true := by decide
/-- P4, the write of NOW_LO that races with STEPS: schedule (a), the write first. -/
theorem test_race_write_first :
    nextIs (step { atTime 100 100 30 with
        pend := some 3#32, turns := [.host], inputs := [wr .nowLo 0xA0] })
      (fun t => t.busy && t.ovr && t.nowLo == 100) = true := by decide
/-- The same, schedule (b), the completion first. -/
theorem test_race_completion_first :
    nextIs (step { atTime 100 100 30 with
        pend := some 3#32, turns := [.sequencer], inputs := [wr .nowLo 0xA0] })
      (fun t => t.statusWord == 0x06#32 && t.counter == 0 && !t.inputs.isEmpty) = true := by decide
/-- SETCFG 8, 3 is a write of 0x38 (P3). -/
theorem test_setCfg : setCfg 8 3 = .bus (writeAt 0x0C 0x00000038) := by decide
/-- The constructor's sequence with P3's configuration, and with TSTEP 60 and BASE -31 (R106, 2.3). -/
theorem test_buildConfigWith :
    buildConfigWith 8 3 64 60 (-31)
      = [.bus (writeAt 0x0C 0x00000038), .bus (writeAt 0x10 0x00000040), .bus (writeAt 0x14 60),
        .bus (writeAt 0x18 0xFFFFFFE1), .bus (writeAt 0x1C 0xFFFFFFFF), .bus (writeAt 0x04 1),
        .wait] := by decide
/-- P1: LDDIG of 20 bytes is five writes; a part word is filled with 0x00 (R87). -/
theorem test_ldDig :
    (ldDig [0x75, 0xA4, 0x8A, 0x19, 0xD4])
      = some [.bus (writeAt 0x80 0x75A48A19), .bus (writeAt 0x84 0xD4000000)] := by decide

/-! ## The hypotheses of the statements can be met -/

/-- Each clause of R83, at the ends of its ranges. -/
theorem witness_DecodeFollowsOpcodeField :
    (0x00000100#32).toNat / 256 ≠ 0 ∧ (0xFFFFFFFF#32).toNat / 256 ≠ 0
      ∧ (0x000000FF#32).toNat / 256 = 0
      ∧ (0x00#32).toNat % 256 = 0x00 ∧ (0x01#32).toNat % 256 = 0x01 ∧ (0x02#32).toNat % 256 = 0x02
      ∧ (0x03#32).toNat % 256 = 0x03 ∧ (0x0F#32).toNat % 256 = 0x0F
      ∧ (∀ n ∈ [0x04, 0x0E, 0x10, 0xFF], (BitVec.ofNat 32 n).toNat / 256 = 0
          ∧ (BitVec.ofNat 32 n).toNat % 256 ∉ [0x00, 0x01, 0x02, 0x03, 0x0F]) := by decide

theorem witness_DecodeAndEncodeAgree :
    ∀ i ∈ [Instr.nop, .config, .trunc, .steps, .reset, .badcmd 0x04 0, .badcmd 0xFF 0, .badcmd 0x0F 1,
      .badcmd 0 0xFFFFFF], i.wellFormed = true := by decide

theorem witness_ResetHasOneEncoding :
    decode 0x0000000F#32 = .reset
      ∧ (∀ n ∈ [0x0000010F, 0xFFFFFF0F],
          opField (BitVec.ofNat 32 n) = 0x0F#8 ∧ rsvField (BitVec.ofNat 32 n) ≠ 0#24)
      ∧ (pending .trunc).rstN = true ∧ (pending .trunc).busy = true := by decide

/-- Both sides of every boundary of the map. -/
theorem witness_RegisterMapIsExact :
    regAt 0x00 = some .id ∧ regAt 0x44 = some .dlenEff ∧ regAt 0x48 = none ∧ regAt 0x7C = none
      ∧ regAt 0x80 = some (.digest 0) ∧ regAt 0xBC = some (.digest 15) ∧ regAt 0xC0 = none
      ∧ regAt 0xFC = none ∧ regAt 0x41 = none ∧ regAt 0xBF = none := by decide

theorem witness_ResetCompletes : (pending .trunc).rstN = true ∧ State.reset.rstN = true := by decide

theorem witness_ReservedBitsReadZeroAndIgnoreWrites :
    (∀ n ∈ [0x48, 0x7C, 0xC0, 0xFC], (BitVec.ofNat 8 n).toNat % 4 = 0
        ∧ ((0x48 ≤ (BitVec.ofNat 8 n).toNat ∧ (BitVec.ofNat 8 n).toNat ≤ 0x7C)
          ∨ (0xC0 ≤ (BitVec.ofNat 8 n).toNat ∧ (BitVec.ofNat 8 n).toNat ≤ 0xFC)))
      ∧ (pending .trunc).rstN = true
      ∧ (0xFFFFFFFF#32).toNat % 2 ^ 6 = (0x3F#32).toNat % 2 ^ 6
      ∧ (0xFFFFFFFF#32).toNat % 2 ^ 7 = (0x7F#32).toNat % 2 ^ 7
      ∧ (0xFFFFFFFF#32).getLsbD 8 = (0x00000100#32).getLsbD 8 := by decide

theorem witness_StatusLayoutAndWrite :
    (pending .trunc).rstN = true ∧ (0x00000100#32).toNat / 256 % 2 = 1
      ∧ ¬((0xFFFFFEFF#32).toNat / 256 % 2 = 1) := by decide

/-- Illegal by size, by alignment, by both; legal at both ends of the window. -/
theorem witness_IllegalAccessChangesNothing :
    State.reset.rstN = true
      ∧ (∀ t ∈ [(⟨.write, 0x0C, .byte, 1⟩ : Txn), ⟨.write, 0x0C, .half, 1⟩, ⟨.read, 0x0A, .word, 0⟩,
          ⟨.read, 0xFF, .byte, 0⟩], ¬(t.size = .word ∧ t.addr.toNat % 4 = 0))
      ∧ (∀ t ∈ [readAt 0x00, writeAt 0xFC 1], t.size = .word ∧ t.addr.toNat % 4 = 0) := by decide

theorem witness_ReadsReturnTheRegisterAndChangeNothing :
    State.reset.rstN = true ∧ (0x44 : Offset).toNat % 4 = 0 ∧ Reg.addr .dlenEff = 0x44
      ∧ (0x04 : Offset) = Reg.addr .cmd ∧ regAt 0x48 = none ∧ regAt 0xFC = none := by decide

theorem witness_reserved_offset_has_no_register : ∀ r : Reg, r.addr ≠ 0x48 := by
  intro r h
  cases r with
  | digest k => revert k; decide
  | _ => revert h; decide

theorem witness_WritesWhileBusy :
    (pending .trunc).rstN = true ∧ (pending .trunc).busy = true ∧ (0x0000000E#32) ≠ 0x0000000F#32
      ∧ (∀ n ∈ [0x48, 0x7C, 0xC0, 0xFC],
          (BitVec.ofNat 8 n).toNat % 4 = 0 ∧ regAt (BitVec.ofNat 8 n) = none)
      ∧ State.reset.rstN = true ∧ State.reset.busy = false
      ∧ (∀ n ∈ [0x00, 0x04, 0x08, 0x0C, 0xFC], (BitVec.ofNat 8 n).toNat % 4 = 0)
      ∧ Reg.access .cfg = .readWrite ∧ Reg.addr .cfg = 0x0C
      ∧ Reg.addr .msg0 = 0x30 ∧ Reg.addr .code = 0x40 ∧ regAt 0x48 = none ∧ regAt 0xFC = none := by decide

theorem witness_AcceptedWritesStore :
    (configured 6 0).rstN = true ∧ (configured 6 0).busy = false
      ∧ (pending .steps).rstN = true ∧ (pending .steps).busy = true
      ∧ Reg.access .nowLo = .readWrite ∧ Reg.access (.digest 15) = .readWrite := by decide

theorem witness_CommandAcceptance :
    State.reset.rstN = true ∧ State.reset.busy = false ∧ (pending .nop).busy = true
      ∧ (∀ n ∈ [0, 0x0E, 0x10, 0x10F], BitVec.ofNat 32 n ≠ 0x0000000F#32) := by decide

/-- A write dropped while TRUNC stays pending. -/
def droppedWrite : State :=
  { pending .trunc with turns := [.host], inputs := [wr .nowLo 1] }

theorem witness_OperandsHeldWhilePending :
    droppedWrite.busy = true ∧ nextIs (step droppedWrite) State.busy = true := by decide

theorem witness_OperandWritesAreIdempotent :
    State.reset.rstN = true ∧ State.reset.busy = false
      ∧ (∀ r ∈ [Reg.cfg, .dlen, .tstep, .baseHi, .nowLo, .counterHi, .digest 15],
          r.access = .readWrite) := by decide

/-- The host's program on the idle unit. -/
def idleWith (l : List Input) : State := { State.reset with inputs := l }

theorem witness_WrSixtyFourSetsThePair :
    ∀ x ∈ [RegPair.base, .now, .counter], ∀ v ∈ [(-2 ^ 63 : Int), -31, 0, 2 ^ 63 - 1],
      (idleWith (wr64 x v ++ [rd .status])).rstN = true
        ∧ (idleWith (wr64 x v ++ [rd .status])).busy = false
        ∧ (idleWith (wr64 x v ++ [rd .status])).inputs = wr64 x v ++ [rd .status] := by decide

theorem witness_EffectiveDigestLength :
    (configured 6 0).halg = 0#2 ∧ (configured 6 1).halg = 1#2 ∧ (configured 6 2).halg = 2#2
      ∧ (configured 6 3).halg = 3#2
      ∧ (∀ s ∈ [{ configured 6 3 with dlen := 20 }, { configured 6 3 with dlen := 64 }],
        s.Inv ∧ s.cfgValid = true) := by decide

theorem witness_DigestBytesArePackedBigEndian :
    State.reset.rstN = true ∧ State.reset.busy = false ∧ (63 : Fin 64).val / 4 ≠ (0 : Fin 16).val
      ∧ Instr.trunc ≠ .reset
      ∧ nextIs (exec .trunc (load 0 digestP1 (configured 6 0))) (fun _ => true) = true := by decide

theorem witness_NopCompletes :
    State.statusWord { State.reset with err := true, errcode := 5, ovr := false, cfgValid := false }
        = 0x00000058#32 := by decide

/-- Each clause at the ends of its ranges. -/
theorem witness_ConfigChecksInOrder :
    (configVector 0x06 0 1).configLegal ∧ (configVector 0x09 0 1).configLegal
      ∧ (configVector 0x36 20 0xFFFFFFFF).configLegal ∧ (configVector 0x36 64 1).configLegal
      ∧ (∀ s ∈ [configVector 0x05 20 0, configVector 0x0A 20 0],
          ¬(6 ≤ s.digits.toNat ∧ s.digits.toNat ≤ 9))
      ∧ (∀ s ∈ [configVector 0x36 19 0, configVector 0x39 65 0],
          (6 ≤ s.digits.toNat ∧ s.digits.toNat ≤ 9)
          ∧ (s.halg = 3#2 ∧ ¬(20 ≤ s.dlen.toNat ∧ s.dlen.toNat ≤ 64)))
      ∧ (∀ s ∈ [configVector 0x36 20 0, configVector 0x39 64 0, configVector 0x06 0 0],
          (6 ≤ s.digits.toNat ∧ s.digits.toNat ≤ 9)
          ∧ (s.halg = 3#2 → 20 ≤ s.dlen.toNat ∧ s.dlen.toNat ≤ 64) ∧ s.tstep = 0#32) := by
  decide

/-- CFG_VALID kept by a completion, and cleared in each of the four ways. -/
theorem witness_ConfigurationIsImmutableWhileValid :
    (configured 6 0).configLegal
      ∧ (let s := { configured 6 0 with pend := some (encode .trunc) }
         s.PendingNotReset ∧ s.cfgValid = true ∧ nextIs (step s) State.cfgValid = true)
      ∧ (∀ s ∈ [{ configured 6 0 with inputs := [wr .cfg 6] },
          { configured 5 0 with pend := some (encode .config) },
          { configured 6 0 with inputs := [issue .reset] },
          { configured 6 0 with inputs := [.rst false] }],
        s.PendingNotReset ∧ s.cfgValid = true ∧ nextIs (step s) (fun t => !t.cfgValid) = true) := by
  decide

theorem witness_TruncComputesTheCode :
    (∀ s ∈ [load 0 digestP1 (configured 6 0), configured 9 1, configured 9 2, configured 9 3],
      s.cfgValid = true ∧ s.configLegal)
      ∧ State.reset.cfgValid = false := by decide

/-- The shortest and the longest digest, and the largest number of digits. -/
theorem witness_TruncWindowStaysInsideTheDigest :
    ∀ s ∈ [load 0 (List.replicate 5 0xFFFFFFFF) (configured 6 0), load 0 digestT6 (configured 9 2),
      { configured 9 3 with dlen := 64 }], s.Inv ∧ s.cfgValid = true := by decide

theorem witness_TruncResultsAreInRange :
    ∀ s ∈ [configured 9 0, configured 6 2], s.Inv ∧ s.cfgValid = true := by decide

/-- T7, T8: another HALG, another DLEN and other bytes after the digest. -/
def otherUnit : State :=
  { load 5 (List.replicate 11 0xFFFFFFFF) (load 0 digestP1 (configured 6 3)) with
    dlen := 20, nowLo := 7, code := 0 }

theorem witness_TruncDependsOnlyOnTheDigestPrefix :
    (∀ s ∈ [load 0 digestP1 (configured 6 0), otherUnit], s.Inv ∧ s.cfgValid = true)
      ∧ (load 0 digestP1 (configured 6 0)).digits = otherUnit.digits
      ∧ (load 0 digestP1 (configured 6 0)).digestLen = otherUnit.digestLen
      ∧ (∀ i < 20, (load 0 digestP1 (configured 6 0)).windowByte i = otherUnit.windowByte i)
      ∧ (load 0 digestP1 (configured 6 0)).digestLen = 20
      ∧ (load 0 digestP1 (configured 6 0)).windowByte 20 ≠ otherUnit.windowByte 20 := by decide

/-- The boundary NOW = BASE, the largest elapsed time, and the two errors. -/
theorem witness_StepsCountsElapsedSteps :
    (∀ s ∈ [atTime 1000 1000 30, atTime (2 ^ 63 - 1) (-2 ^ 63) 1],
      s.cfgValid = true ∧ s.tstep ≠ 0#32 ∧ s.base.toInt ≤ s.now.toInt)
      ∧ (∀ s ∈ [atTime 999 1000 30, atTime (-2 ^ 63) (2 ^ 63 - 1) 1],
        s.cfgValid = true ∧ s.tstep ≠ 0#32 ∧ s.now.toInt < s.base.toInt)
      ∧ State.reset.cfgValid = false := by decide

theorem witness_StepsNeedsAConfiguration :
    State.reset.cfgValid = false ∧ (atTime 0 0 1).Inv ∧ (atTime 0 0 1).cfgValid = true := by decide

/-- The boundary NOW = BASE - 1, and the most negative elapsed time. -/
theorem witness_StepsRejectsTimeBeforeBase :
    ∀ s ∈ [atTime 999 1000 30, atTime (-2 ^ 63) (2 ^ 63 - 1) 1],
      s.cfgValid = true ∧ s.tstep ≠ 0#32 ∧ s.now.toInt < s.base.toInt := by decide

theorem witness_IllegalWordsCompleteWithBadcmd :
    decode 0x00000004#32 = .badcmd 0x04 0 ∧ decode 0x0000010F#32 = .badcmd 0x0F 1
      ∧ State.reset.rstN = true ∧ State.reset.busy = false := by decide

theorem witness_CommandFrame :
    ∀ i ∈ [Instr.nop, .config, .trunc, .steps, .badcmd 4 0],
      i ≠ .reset ∧ nextIs (exec i (configured 6 0)) (fun _ => true) = true := by decide

/-- One command for each error code, 1 to 6. -/
theorem witness_ErrorsArePrecise :
    ∀ p ∈ [(Instr.config, configVector 5 20 30, 1#4), (.config, configVector 0x36 19 30, 2#4),
        (.config, configVector 6 20 0, 3#4), (.trunc, State.reset, 4#4), (.steps, atTime 999 1000 30, 5#4),
        (.badcmd 4 0, State.reset, 6#4)],
      p.2.1.err = false
        ∧ nextIs (exec p.1 p.2.1) (fun t => t.err && t.errcode == p.2.2) = true := by decide

/-- The clauses of the priority, with the later errors present too. -/
theorem witness_ErrorPriority :
    (let s := { configVector 0x35 19 0 with pend := some 4#32 }
     s.err = false ∧ s.pend = some 4#32 ∧ decode 4#32 = .badcmd 4 0 ∧ s.cfgValid = false)
      ∧ ((atTime 999 1000 30).err = false ∧ (atTime 999 1000 30).cfgValid = true
        ∧ (atTime 999 1000 30).tstep ≠ 0#32 ∧ (atTime 999 1000 30).now.toInt < (atTime 999 1000 30).base.toInt)
      ∧ (∀ s ∈ [configVector 0x35 19 0, configVector 0x36 19 0, configVector 0x06 19 0],
        s.err = false ∧ nextIs (exec .config s) State.err = true) := by decide

theorem witness_StepRunsTheDecodedCommand :
    (pending .trunc).rstN = true ∧ (pending .trunc).pend = some 2#32 ∧ (pending .trunc).inputs = []
      ∧ State.turns { pending .trunc with inputs := [.clk], turns := [.sequencer] } = [.sequencer]
      ∧ (idleWith [issue .reset]).inputs = .bus (cmdTxn 0x0000000F#32) :: []
      ∧ (idleWith [issue .reset]).busy = false ∧ (idleWith [issue .reset]).rstN = true
      ∧ (let s := { pending .trunc with inputs := [issue .reset], turns := [.host] }
         s.busy = true ∧ s.turns.headD .sequencer = .host)
      ∧ BitVec.ofNat 32 0x10F ≠ 0x0000000F#32 := by decide

theorem witness_CompletionIsOneStep :
    (pending .trunc).mover = some .sequencer
      ∧ State.mover { pending .nop with inputs := [.clk], turns := [.sequencer] } = some .sequencer
      ∧ State.mover { pending .nop with inputs := [.clk] } = some .sequencer := by decide

theorem witness_IdleUnitKeepsItsState :
    State.reset.inputs = [] ∧ State.reset.busy = false
      ∧ (idleWith [.clk]).inputs = .clk :: [] ∧ (idleWith [.clk]).busy = false
      ∧ (idleWith [.rst true]).inputs = .rst true :: []
      ∧ State.turns { pending .trunc with turns := [.host], inputs := [.clk] } = [.host]
      ∧ (∀ s ∈ [idleWith [.clk], idleWith [.rst true], idleWith [rd .counterLo], idleWith [.wait],
            { pending .steps with turns := [.host], inputs := [.clk] }],
          nextIs (step s) (fun _ => true) = true ∧ s.mover ≠ some .sequencer
            ∧ s.inputs.head? ≠ some (.rst false)) := by decide

theorem witness_clk_is_no_write (a : Offset) (v : Word) :
    (idleWith [.clk]).inputs.head? ≠ some (.bus ⟨.write, a, .word, v⟩) := by
  simp [idleWith]

/-- rst_n goes low on a busy unit, and stays low. -/
theorem witness_ResetPinHoldsTheUnit :
    (∀ s ∈ [{ pending .trunc with turns := [.host], inputs := [.rst false] },
        { State.reset with rstN := false, inputs := [.clk] }],
      s.Inv ∧ nextIs (step s) (fun t => !t.rstN) = true)
      ∧ State.rstN { State.reset with rstN := false } = false := by decide

/-- OVR set, OVR cleared in its three ways, flags changed in their three ways. -/
theorem witness_WhoWritesTheFlags :
    (droppedWrite.PendingNotReset ∧ droppedWrite.ovr = false
        ∧ nextIs (step droppedWrite) State.ovr = true)
      ∧ (∀ i ∈ [wr .status 0x100, issue .reset, .rst false],
        State.PendingNotReset { idleWith [i] with ovr := true }
          ∧ nextIs (step { idleWith [i] with ovr := true }) (fun t => !t.ovr) = true)
      ∧ (∀ s ∈ [pending .nop, { idleWith [issue .nop] with done := true },
          { idleWith [.rst false] with done := true }],
        s.PendingNotReset ∧ nextIs (step s) (fun t => t.done != s.done) = true) := by decide

theorem witness_StepKeepsTheInvariant :
    ∀ s ∈ [{ configured 6 0 with pend := some 2#32 }, idleWith [issue .config], droppedWrite,
        { idleWith [.rst true] with rstN := false }],
      s.Inv ∧ nextIs (step s) (fun _ => true) = true := by decide

theorem witness_EveryAcceptedCommandEnds :
    State.busy { pending .trunc with turns := [.host, .host], inputs := [.clk, .clk, .clk] } = true
      ∧ (pending .trunc).rstN = true := by decide

theorem witness_WaitEnds :
    State.rstN { pending .trunc with turns := [.host, .sequencer], inputs := [.wait, rd .code] } = true
      ∧ State.inputs { pending .trunc with turns := [.host, .sequencer], inputs := [.wait, rd .code] }
        = .wait :: [rd .code] := by decide

theorem witness_RunGivesTheResultOnEverySchedule :
    ∀ i ∈ [Instr.nop, .config, .trunc, .steps, .badcmd 4 0],
      i.wellFormed = true ∧ i ≠ .reset
        ∧ (idleWith (runCmd i ++ [rd .code])).rstN = true
        ∧ (idleWith (runCmd i ++ [rd .code])).busy = false
        ∧ (idleWith (runCmd i ++ [rd .code])).inputs = runCmd i ++ [rd .code] := by decide

/-- The lengths 0, 1, 20 and 64 are loaded, 65 is refused. -/
theorem witness_LdDigLoadsTheDigest :
    (∀ n ∈ [0, 1, 20, 64], (List.replicate n (0xFF : Byte)).length ≤ 64)
      ∧ 64 < (List.replicate 65 (0xFF : Byte)).length
      ∧ State.reset.rstN = true ∧ State.reset.busy = false := by decide

theorem witness_BuildConfigAcceptsSixToNineDigits :
    ∀ n ∈ [5, 6, 9, 10],
      (idleWith (buildConfig (BitVec.ofNat 4 n))).rstN = true
        ∧ (idleWith (buildConfig (BitVec.ofNat 4 n))).busy = false
        ∧ (idleWith (buildConfig (BitVec.ofNat 4 n))).inputs
          = buildConfig (BitVec.ofNat 4 n) ++ []
        ∧ (idleWith (buildConfigAfterReset (BitVec.ofNat 4 n))).inputs
          = buildConfigAfterReset (BitVec.ofNat 4 n) ++ []
        ∧ (idleWith (buildConfigAfterReset (BitVec.ofNat 4 n))).busy = false
        ∧ (idleWith (buildConfigAfterReset (BitVec.ofNat 4 n))).tstep = 30#32
        ∧ (idleWith (buildConfigAfterReset (BitVec.ofNat 4 n))).base = 0#64 := by decide

/-- A legal configuration at the end of its ranges, and one for each error. -/
theorem witness_FullConstructorAcceptsLegalConfigurations :
    ∀ l ∈ [buildConfigWith 9 3 64 1 (-31), buildConfigWith 5 0 0 0 0, buildConfigWith 6 3 19 0 0,
        buildConfigWith 6 3 20 0 0],
      (idleWith (l ++ [rd .status])).rstN = true ∧ (idleWith (l ++ [rd .status])).busy = false
        ∧ (idleWith (l ++ [rd .status])).inputs = l ++ [rd .status] := by decide

end Sys2Proof.Tests
end

section
/-!
SUPPORT. The invariant (R26 to R30, R45, R103, R105, R190): what each operation of the unit does to its parts,
and that every step keeps it.
-/

namespace Sys2Proof.Machine

open Host.Outcome (next)

/-! ### The parts of the invariant under each operation -/

/-- `decode` leads to RESET from its one word only (R84). -/
theorem eq_encode_reset_of_decode {w : Word} (h : decode w = .reset) : w = encode .reset := by
  rcases decode_cases w with ⟨-, hd⟩ | ⟨-, hd⟩ | ⟨-, hd⟩ | ⟨-, hd⟩ | ⟨hw, -⟩ | ⟨hd, -⟩
  case inr.inr.inr.inr.inl => exact hw
  all_goals rw [h] at hd; cases hd

/-- A pending command that is not the RESET word does not decode to RESET. -/
theorem decode_ne_reset_of_pend {s : State} {w : Word} (hn : s.PendingNotReset)
    (hp : s.pend = some w) : decode w ≠ .reset :=
  fun h => hn (hp.trans (congrArg some (eq_encode_reset_of_decode h)))

theorem heldInReset_of_high {s : State} (h : s.rstN = true) : s.HeldInReset :=
  fun hl => absurd (h.symm.trans hl) (by decide)

theorem statusCoherent_complete {s : State} (h : s.StatusCoherent) (he : s.err = false) :
    s.complete.StatusCoherent := by
  obtain ⟨-, -, hcode, hle⟩ := h
  exact ⟨by simp [he], by simp [State.busy], hcode, hle⟩

theorem statusCoherent_raiseCmdError {s : State} (hd : s.done = false) (e : CmdError) :
    (s.raiseCmdError e).StatusCoherent := by
  have hcode : e.errcode ≠ 0#4 ∧ e.errcode.toNat ≤ 6 := by cases e <;> decide
  exact ⟨by simp [hd], by simp [State.busy], by simpa using hcode.1, hcode.2⟩

/-- A store changes a configuration register only where it clears CFG_VALID (R33). -/
theorem configChecked_storeReg {s : State} (h : s.ConfigChecked) (r : Reg) (v : Word) :
    (s.storeReg r v).ConfigChecked := by
  cases r with
  | cfg | dlen | tstep | baseLo | baseHi => exact fun hv => nomatch hv
  | _ => exact h

/-- The results TRUNC writes under a legal configuration are reduced, and fit CODE (R127). -/
theorem codeReduced_trunc {s t : State} (hl : s.configLegal)
    (hb : t.bincode = BitVec.ofNat 31 s.binCode)
    (hc : t.code = BitVec.ofNat 30 (s.binCode % 10 ^ s.digits.toNat)) : t.CodeReduced := by
  obtain ⟨hmin, hmax, -⟩ := hl
  have hpow : 10 ^ s.digits.toNat ≤ 10 ^ 9 := Nat.pow_le_pow_right (by decide) hmax
  have hmod : s.binCode % 10 ^ s.digits.toNat < 10 ^ s.digits.toNat :=
    Nat.mod_lt _ (Nat.pow_pos (by decide))
  refine ⟨s.digits.toNat, ?_, ?_⟩
  · simp only [List.mem_cons, List.not_mem_nil, or_false]; omega
  · rw [hb, hc, BitVec.toNat_ofNat, BitVec.toNat_ofNat, Nat.mod_eq_of_lt (binCode_lt s),
      Nat.mod_eq_of_lt (by omega)]

/-! ### The operations that keep the invariant -/

/-- What is outside the unit has no part in the invariant (log 18). -/
theorem inv_withOutside {s : State} (h : s.Inv) (is : List Input) (ts : List Agent)
    (as : List BusAnswer) : State.Inv { s with inputs := is, turns := ts, answers := as } := by
  obtain ⟨hst, hcfg, hpend, hcode, hheld⟩ := h
  exact ⟨hst, hcfg, hpend, hcode, fun hr =>
    congrArg (fun u : State => { u with inputs := is, turns := ts, answers := as }) (hheld hr)⟩

theorem inv_answer {s : State} (h : s.Inv) (a : BusAnswer) : (s.answer a).Inv :=
  inv_withOutside h _ _ _

theorem inv_resetUnit (s : State) : s.resetUnit.Inv :=
  ⟨by simp [State.StatusCoherent, State.busy], nofun, nofun, ⟨6, by simp⟩, fun _ => rfl⟩

theorem inv_setRstN_low (s : State) : State.Inv { s.resetUnit with rstN := false } := by
  obtain ⟨hst, hcfg, hpend, hcode, -⟩ := inv_resetUnit s
  exact ⟨hst, hcfg, hpend, hcode, fun _ => rfl⟩

theorem inv_setRstN_high {s : State} (h : s.Inv) : State.Inv { s with rstN := true } := by
  obtain ⟨hst, hcfg, hpend, hcode, -⟩ := h
  exact ⟨hst, hcfg, hpend, hcode, heldInReset_of_high rfl⟩

theorem inv_accept {s : State} (h : s.Inv) (hr : s.rstN = true) {w : Word}
    (hw : w ≠ encode .reset) : (s.accept w).Inv := by
  obtain ⟨-, hcfg, -, hcode, -⟩ := h
  exact ⟨by simp [State.StatusCoherent], hcfg, fun hp => hw (Option.some.inj hp), hcode,
    heldInReset_of_high hr⟩

theorem inv_dropWrite {s : State} (h : s.Inv) (hr : s.rstN = true) : s.dropWrite.Inv := by
  obtain ⟨hst, hcfg, hpend, hcode, -⟩ := h
  exact ⟨hst, hcfg, hpend, hcode, heldInReset_of_high hr⟩

theorem inv_writeStatus {s : State} (h : s.Inv) (hr : s.rstN = true) (v : Word) :
    (s.writeStatus v).Inv := by
  obtain ⟨hst, hcfg, hpend, hcode, -⟩ := h
  exact ⟨hst, hcfg, hpend, hcode, heldInReset_of_high hr⟩

theorem inv_storeReg {s : State} (h : s.Inv) (hr : s.rstN = true) (r : Reg) (v : Word) :
    (s.storeReg r v).Inv := by
  obtain ⟨hst, hcfg, hpend, hcode, -⟩ := h
  obtain ⟨ep, -, ed, ee, ec, -, -, eb, eo, er, -⟩ := storeReg_frame r v s
  refine ⟨?_, configChecked_storeReg hcfg r v, ?_, ?_, heldInReset_of_high (er.trans hr)⟩
  · simpa only [State.StatusCoherent, State.busy, ep, ed, ee, ec] using hst
  · rwa [State.PendingNotReset, ep]
  · rwa [State.CodeReduced, eb, eo]

/-- A cycle of clk changes nothing that the invariant speaks of; in reset no command is pending, so it
does not count either (R190). -/
theorem inv_tick {s : State} (h : s.Inv) : s.tick.Inv := by
  obtain ⟨hst, hcfg, hpend, hcode, hheld⟩ := h
  refine ⟨hst, hcfg, hpend, hcode, fun hr => ?_⟩
  have hs : s = s.resetUnit := hheld hr
  rw [hs]; rfl

/-! ### Commands -/

/-- A pending command completes with the invariant kept: by R195 it finds DONE, ERR and ERRCODE clear. -/
theorem inv_exec {s t : State} {i : Instr} (h : s.Inv) (hr : s.rstN = true) (hb : s.busy = true)
    (hx : exec i s = next t) : t.Inv := by
  by_cases hi : i = .reset
  · subst hi; cases hx; exact inv_resetUnit s
  obtain ⟨hst, hcfg, -, hcode, -⟩ := h
  obtain ⟨hd, he⟩ := hst.2.1 hb
  obtain ⟨-, -, -, hrt, hpt⟩ := exec_outside hx
  have hpend : t.PendingNotReset := fun hp => nomatch hpt.symm.trans hp
  have hheld : t.HeldInReset := heldInReset_of_high (hrt.trans hr)
  have hdone : s.complete.StatusCoherent := statusCoherent_complete hst he
  have herr : ∀ e, (s.raiseCmdError e).StatusCoherent := statusCoherent_raiseCmdError hd
  rcases exec_cases hx hi with ⟨-, rfl⟩ | ⟨-, hl, rfl⟩ | ⟨-, -, e, -, rfl⟩ | ⟨-, hv, rfl⟩
    | ⟨-, -, -, rfl⟩ | ⟨-, -, -, rfl⟩ | ⟨-, -, rfl⟩ | ⟨-, rfl⟩
  · exact ⟨hdone, hcfg, hpend, hcode, hheld⟩
  · exact ⟨hdone, fun _ => hl, hpend, hcode, hheld⟩
  · exact ⟨herr e, nofun, hpend, hcode, hheld⟩
  · exact ⟨hdone, hcfg, hpend, codeReduced_trunc (hcfg hv) rfl rfl, hheld⟩
  · exact ⟨hdone, hcfg, hpend, hcode, hheld⟩
  all_goals exact ⟨herr _, hcfg, hpend, hcode, hheld⟩

/-! ### The host's move and the step -/

theorem inv_busStep {s u : State} {t : Txn} (h : s.Inv) (hx : busStep t s = next u) : u.Inv := by
  obtain ⟨hr, a, hc⟩ := busStep_cases hx
  rcases hc with ⟨v, -, rfl⟩ | ⟨-, rfl⟩ | ⟨w, -, hw, -, rfl⟩ | ⟨r, v, -, -, -, rfl⟩
    | ⟨-, -, -, -, rfl⟩ | rfl
  · exact inv_answer (inv_writeStatus h hr v) a
  · exact inv_answer (inv_resetUnit s) a
  · exact inv_answer (inv_accept h hr hw) a
  · exact inv_answer (inv_storeReg h hr r v) a
  · exact inv_answer (inv_dropWrite h hr) a
  · exact inv_answer h a

theorem inv_performInput {s u : State} {i : Input} (h : s.Inv) (hx : performInput i s = next u) :
    u.Inv := by
  rcases performInput_cases hx with ⟨t, -, hb⟩ | ⟨-, -, -, rfl⟩ | ⟨-, -, -, rfl⟩ | ⟨-, rfl⟩
    | ⟨-, rfl⟩ | ⟨-, rfl⟩
  · exact inv_busStep h hb
  · exact inv_withOutside h _ _ _
  · exact inv_answer h _
  · exact inv_tick h
  · exact inv_setRstN_high h
  · exact inv_setRstN_low s

/-- Settles O42: the step is nothing, a completion or one input, and each of these keeps the invariant. -/
theorem stepKeepsTheInvariant : Obligations.StepKeepsTheInvariant := by
  intro s t h hx
  rcases step_cases hx with ⟨-, rfl⟩ | ⟨w, hm, hp, he⟩ | ⟨i, rest, -, -, hi⟩
  · exact h
  · have hspent : s.spendTurn.Inv := inv_withOutside h _ _ _
    have hb : s.spendTurn.busy = true := by simp [State.busy, hp]
    exact inv_exec hspent (pending_of_mover hm).1 hb he
  · exact inv_performInput (inv_withOutside h _ _ _) hi

/-- Settles O41: the reset state is what a reset of the unit leaves of it. -/
theorem resetMeetsTheInvariant : Obligations.ResetMeetsTheInvariant := inv_resetUnit State.reset

end Sys2Proof.Machine
end

section
/-!
SUPPORT. The register window (R20, R22, R24, R48, R50): which offset leads to which register, what each reads
after reset, the layout of STATUS, and the reserved bits.
-/

namespace Sys2Proof.Machine

open Host.Outcome (next)

/-! ### The register map -/

/-- The reserved offsets of the window (R48, R62). -/
theorem regAt_eq_none_iff (a : Offset) :
    regAt a = none ↔ a.toNat % 4 ≠ 0 ∨ (0x48 ≤ a.toNat ∧ a.toNat ≤ 0x7F) ∨ 0xC0 ≤ a.toNat := by
  have hlen : namedRegs.length = 18 := rfl
  unfold regAt
  split_ifs
  · simp only [true_iff]; omega
  · rw [List.getElem?_eq_none_iff, hlen]; omega
  · simp only [false_iff]; omega
  · simp only [true_iff]; omega

theorem readOffset_of_reserved (s : State) {a : Offset} (h : regAt a = none) :
    s.readOffset a = 0 := by
  simp [State.readOffset, h]

/-- A write of an operand register is dropped while busy, and else stored (R64, R65). -/
theorem legalWrite_readWrite (s : State) {r : Reg} (v : Word) (h : r.access = .readWrite) :
    legalWrite r.addr v s = if s.busy then next s.dropWrite else next (s.storeReg r v) := by
  rw [legalWrite_addr, h]

theorem legalWrite_of_reserved (s : State) {a : Offset} (v : Word) (h : regAt a = none) :
    legalWrite a v s = next s := by
  simp [legalWrite, h]

/-- Settles O5: the map is the inverse of `Reg.addr`, and the reserved offsets are those of R48. -/
theorem registerMapIsExact : Obligations.RegisterMapIsExact :=
  ⟨rfl, rfl, rfl, rfl, rfl, rfl, rfl, rfl, rfl, rfl, rfl, rfl, rfl, rfl, rfl, rfl, rfl, rfl,
    fun k => regAt_addr (.digest k), regAt_addr, addr_of_regAt, fun a => (regAt_eq_none_iff a).symm⟩

/-- Settles O8: the two offsets lead to ID and to CMD, which hold nothing. -/
theorem idAndCmdReadConstants : Obligations.IdAndCmdReadConstants :=
  fun s => ⟨readOffset_addr s .id, readOffset_addr s .cmd⟩

/-! ### Reset values (R20, R50) -/

/-- The reset column of R20, register by register. -/
theorem readReg_resetUnit (s : State) (r : Reg) : s.resetUnit.readReg r = resetValueAt r.addr :=
  calc s.resetUnit.readReg r = State.reset.readReg r := by cases r <;> rfl
    _ = resetValueAt r.addr := by
      cases r with
      | digest k => revert k; decide
      | _ => decide

theorem resetValueAt_of_reserved : ∀ a : Offset, regAt a = none → resetValueAt a = 0 := by decide

theorem readOffset_resetUnit (s : State) (a : Offset) :
    s.resetUnit.readOffset a = resetValueAt a := by
  cases hr : regAt a with
  | none => rw [readOffset_of_reserved _ hr, resetValueAt_of_reserved a hr]
  | some r =>
    obtain rfl := addr_of_regAt a r hr
    rw [readOffset_addr, readReg_resetUnit]

/-- Settles O6: both resets leave `State.resetUnit`, and every offset of it reads the reset column. -/
theorem resetGivesResetValues : Obligations.ResetGivesResetValues := fun s =>
  ⟨s.resetUnit, rfl, rfl, readOffset_resetUnit s, readReg_resetUnit s .status, rfl,
    (msgOut_eq_counter _).trans (show joinWords 0 0 = 0#64 by decide)⟩

/-! ### STATUS (R24) -/

theorem getLsbD_eight_eq_decide (v : Word) : v.getLsbD 8 = decide (v.toNat / 256 % 2 = 1) :=
  Nat.testBit_eq_decide_div_mod_eq

theorem writeStatus_eq_ite (v : Word) (s : State) :
    s.writeStatus v = { s with ovr := if v.toNat / 256 % 2 = 1 then false else s.ovr } := by
  unfold State.writeStatus
  rw [getLsbD_eight_eq_decide]
  split <;> simp [*]

/-- Settles O10: STATUS is the sum of its fields, and its one writable bit is OVR's. -/
theorem statusLayoutAndWrite : Obligations.StatusLayoutAndWrite := by
  refine ⟨statusWord_toNat, fun s v hr => ?_, readReg_resetUnit State.reset .status⟩
  have hw : busStep ⟨.write, 0x08, .word, v⟩ s = next ((s.writeStatus v).answer writeAnswer) :=
    busStep_write hr 0x08 v rfl
  rw [hw, writeStatus_eq_ite]

/-! ### Reserved offsets and bits (R48) -/

/-- The two ranges in which R48 lists reserved offsets. -/
theorem regAt_of_reserved_range {a : Offset}
    (h : (0x48 ≤ a.toNat ∧ a.toNat ≤ 0x7C) ∨ (0xC0 ≤ a.toNat ∧ a.toNat ≤ 0xFC)) : regAt a = none :=
  (regAt_eq_none_iff a).2 (by omega)

/-- Every register with reserved bits reads below the weight of the first of them. -/
theorem readReg_reserved_bits (s : State) :
    (s.readReg .status).toNat < 2 ^ 9 ∧ (s.readReg .cfg).toNat < 2 ^ 6
      ∧ (s.readReg .dlen).toNat < 2 ^ 7 ∧ (s.readReg .offset).toNat < 2 ^ 4
      ∧ (s.readReg .bincode).toNat < 2 ^ 31 ∧ (s.readReg .code).toNat < 2 ^ 30
      ∧ (s.readReg .dlenEff).toNat < 2 ^ 7 := by
  have hstatus : (s.readReg .status).toNat = _ := statusWord_toNat s
  have hcfg : (s.readReg .cfg).toNat = _ := cfgWord_toNat s
  have := Bool.toNat_le s.busy
  have := Bool.toNat_le s.cfgValid
  have := Bool.toNat_le s.done
  have := Bool.toNat_le s.err
  have := Bool.toNat_le s.ovr
  simp only [State.readReg, BitVec.toNat_setWidth] at hstatus hcfg ⊢
  omega

/-- Fields cut from the low bits of a word depend on these bits only. -/
theorem extractLsb'_congr_of_mod {v v' : Word} (start len m : Nat) (hm : start + len ≤ m)
    (h : v.toNat % 2 ^ m = v'.toNat % 2 ^ m) : v.extractLsb' start len = v'.extractLsb' start len := by
  ext i hi
  have hbit := congrArg (Nat.testBit · (start + i)) h
  simpa [← BitVec.testBit_toNat, Nat.testBit_mod_two_pow, show start + i < m by omega] using hbit

/-- Settles O9: a reserved offset leads to no register, and no field of a register comes from a
reserved bit. -/
theorem reservedBitsReadZeroAndIgnoreWrites : Obligations.ReservedBitsReadZeroAndIgnoreWrites := by
  refine ⟨fun s a h => readOffset_of_reserved s (regAt_of_reserved_range h), fun s a v hr ha h => ?_,
    readReg_reserved_bits, fun s v v' => ⟨fun h => ?_, fun h => ?_, fun h => ?_, fun r hm => ?_⟩⟩
  · rw [busStep_write hr a v ha, legalWrite_of_reserved s v (regAt_of_reserved_range h)]; rfl
  · have hd := extractLsb'_congr_of_mod 0 4 6 (by decide) h
    have hh := extractLsb'_congr_of_mod 4 2 6 (by decide) h
    have hs : s.storeReg .cfg v = s.storeReg .cfg v' := by simp only [State.storeReg, hd, hh]
    rw [show (0x0C : Offset) = Reg.addr .cfg from rfl, legalWrite_readWrite s v rfl,
      legalWrite_readWrite s v' rfl, hs]
  · have hl := extractLsb'_congr_of_mod 0 7 7 (by decide) h
    have hs : s.storeReg .dlen v = s.storeReg .dlen v' := by simp only [State.storeReg, hl]
    rw [show (0x10 : Offset) = Reg.addr .dlen from rfl, legalWrite_readWrite s v rfl,
      legalWrite_readWrite s v' rfl, hs]
  · have hs : s.writeStatus v = s.writeStatus v' := by simp only [State.writeStatus, h]
    exact congrArg next hs
  · have hro : r.access = .readOnly := by
      simp only [List.mem_cons, List.not_mem_nil, or_false] at hm
      rcases hm with rfl | rfl | rfl | rfl <;> rfl
    rw [legalWrite_addr, hro]

end Sys2Proof.Machine
end

section
/-!
SUPPORT. Views and stores (R33, R39, R40, R42, R67, R78, R120): the message and the effective digest length as
views of other registers, the bytes of the digest buffer, and what an accepted write stores.
-/

namespace Sys2Proof.Machine

open Host.Outcome (next)

/-! ### Views -/

theorem messageByte_toNat (s : State) (i : Fin 8) :
    (s.messageByte i).toNat = s.counter.toNat / 256 ^ (7 - i.val) % 256 := by
  have hpow : 2 ^ (56 - 8 * i.val) = 256 ^ (7 - i.val) := by
    rw [show 56 - 8 * i.val = 8 * (7 - i.val) by omega]
    exact pow_mul 2 8 _
  rw [State.messageByte, BitVec.extractLsb'_toNat, Nat.shiftRight_eq_div_pow, hpow]

/-- Settles O19: the bytes are cut from COUNTER, and joined again they give its halves and itself. -/
theorem messageIsTheCounterBigEndian : Obligations.MessageIsTheCounterBigEndian := fun s =>
  ⟨messageByte_toNat s, msg0_eq_counterHi s, msg1_eq_counterLo s, msgOut_eq_counter s⟩

theorem readReg_dlenEff_toNat (s : State) : (s.readReg .dlenEff).toNat = s.dlenEff.toNat := by
  have := s.dlenEff.isLt
  simp only [State.readReg, BitVec.toNat_setWidth]; omega

/-- Settles O20: by the value of HALG; the bounds come from the checked configuration. -/
theorem effectiveDigestLength : Obligations.EffectiveDigestLength := by
  intro s
  rw [readReg_dlenEff_toNat]
  refine ⟨s.dlenEff.isLt, fun h => ?_, fun h => ?_, fun h => ?_, fun h => ?_, ?_⟩
  · simp [State.dlenEff, h]
  · simp [State.dlenEff, h]
  · simp [State.dlenEff, h]
  · simp [State.readReg, State.dlenEff, h]
  · rintro ⟨-, hcfg, -⟩ hv
    exact dlenEff_of_legal (hcfg hv)

/-! ### Accepted writes -/

/-- The flags and PEND are read in STATUS only (R24, R47). -/
theorem readReg_withFlags (s : State) (p : Option Word) (cv d e : Bool) (c : BitVec 4) (o : Bool)
    {r : Reg} (h : r ≠ .status) :
    State.readReg { s with pend := p, cfgValid := cv, done := d, err := e, errcode := c, ovr := o } r
      = s.readReg r := by
  cases r with
  | status => exact absurd rfl h
  | _ => rfl

/-- A write of an operand register to an idle unit stores its value (R33). -/
theorem busStep_write_idle {s : State} (hr : s.rstN = true) (hb : s.busy = false) {r : Reg}
    (ha : r.access = .readWrite) (v : Word) :
    busStep ⟨.write, r.addr, .word, v⟩ s = next ((s.storeReg r v).answer writeAnswer) := by
  rw [busStep_write_addr hr, legalWrite_readWrite s v ha, hb]; rfl

/-- A write of an operand register to a busy unit is dropped (R65). -/
theorem busStep_write_busy {s : State} (hr : s.rstN = true) (hb : s.busy = true) {r : Reg}
    (ha : r.access = .readWrite) (v : Word) :
    busStep ⟨.write, r.addr, .word, v⟩ s = next (s.dropWrite.answer writeAnswer) := by
  rw [busStep_write_addr hr, legalWrite_readWrite s v ha, hb]; rfl

theorem readsAsBefore_storeReg (s : State) (r : Reg) (v : Word) (a : BusAnswer) :
    readsAsBefore (viewsOf r) s ((s.storeReg r v).answer a) :=
  readsAsBefore_of_regs fun q hq =>
    (readReg_answer _ a q).trans (readReg_storeReg_of_not_view s r q v hq)

theorem readsAsBefore_dropWrite (s : State) (a : BusAnswer) :
    readsAsBefore [.status] s (s.dropWrite.answer a) := by
  refine readsAsBefore_of_regs fun r hr => ?_
  rw [readReg_answer]
  exact readReg_withFlags s _ _ _ _ _ _ fun h => hr (List.mem_singleton.2 h)

theorem sameFlagsButCfgValid_storeReg (s : State) (r : Reg) (v : Word) (a : BusAnswer) :
    sameFlagsButCfgValid s ((s.storeReg r v).answer a) := by
  obtain ⟨hp, -, hd, he, hc, ho, -⟩ := storeReg_frame r v s
  exact ⟨congrArg Option.isSome hp, hd, he, hc, ho⟩

theorem cfgWord_storeReg_cfg (s : State) (v : Word) :
    (s.storeReg .cfg v).cfgWord.toNat = v.toNat % 2 ^ 6 := by
  rw [cfgWord_toNat]
  simp only [State.storeReg, BitVec.extractLsb'_toNat, Nat.shiftRight_eq_div_pow]
  omega

theorem readReg_storeReg_dlen (s : State) (v : Word) :
    ((s.storeReg .dlen v).readReg .dlen).toNat = v.toNat % 2 ^ 7 := by
  simp only [State.storeReg, State.readReg, BitVec.toNat_setWidth, BitVec.extractLsb'_toNat,
    Nat.shiftRight_eq_div_pow]
  omega

theorem readReg_storeReg_digest (s : State) (k : Fin 16) (v : Word) :
    (s.storeReg (.digest k) v).readReg (.digest k) = v := by
  simp [State.storeReg, State.readReg]

/-- Settles O14: register by register, the idle write is a store, the busy one is dropped. -/
theorem acceptedWritesStore : Obligations.AcceptedWritesStore := by
  intro s v hr
  refine ⟨fun hb => ?_, fun hb r ha => ?_⟩
  · have hw : ∀ r : Reg, r.access = .readWrite →
        busStep ⟨.write, r.addr, .word, v⟩ s = next ((s.storeReg r v).answer writeAnswer) :=
      fun r ha => busStep_write_idle hr hb ha v
    have hreads := fun r => readsAsBefore_storeReg s r v writeAnswer
    have hflags := fun r => sameFlagsButCfgValid_storeReg s r v writeAnswer
    refine ⟨⟨_, hw .cfg rfl, cfgWord_storeReg_cfg s v, rfl, hflags _, hreads .cfg⟩,
      ⟨_, hw .dlen rfl, readReg_storeReg_dlen s v, rfl, hflags _, hreads .dlen⟩,
      fun r hm => ?_, fun r hm => ?_,
      ⟨_, hw .counterLo rfl, rfl, msg1_eq_counterLo _, hreads .counterLo⟩,
      ⟨_, hw .counterHi rfl, rfl, msg0_eq_counterHi _, hreads .counterHi⟩,
      fun k => ⟨_, hw (.digest k) rfl, readReg_storeReg_digest s k v, hreads (.digest k)⟩⟩
    · simp only [List.mem_cons, List.not_mem_nil, or_false] at hm
      rcases hm with rfl | rfl | rfl
      · exact ⟨_, hw .tstep rfl, rfl, rfl, hflags _, hreads .tstep⟩
      · exact ⟨_, hw .baseLo rfl, rfl, rfl, hflags _, hreads .baseLo⟩
      · exact ⟨_, hw .baseHi rfl, rfl, rfl, hflags _, hreads .baseHi⟩
    · simp only [List.mem_cons, List.not_mem_nil, or_false] at hm
      rcases hm with rfl | rfl
      · exact ⟨_, hw .nowLo rfl, rfl, hreads .nowLo⟩
      · exact ⟨_, hw .nowHi rfl, rfl, hreads .nowHi⟩
  · exact ⟨_, busStep_write_busy hr hb ha v, readsAsBefore_dropWrite s _, rfl, rfl, rfl, rfl, rfl⟩

end Sys2Proof.Machine
end

section
/-!
SUPPORT. What each command leaves unchanged (R37, R38, R40, R49), and the digest buffer byte by byte
(R40, R67).
-/

namespace Sys2Proof.Machine

open Host.Outcome (next)

/-! ### The frame of each command -/

/-- The registers of the window that a command other than RESET may change. -/
def commandWrites : Instr → List Reg
  | .trunc => [.status, .offset, .bincode, .code]
  | .steps => [.status, .counterLo, .counterHi, .msg0, .msg1]
  | _ => [.status]

theorem readReg_withResults (s : State) (o : BitVec 4) (b : BitVec 31) (c : BitVec 30) {r : Reg}
    (h : r ∉ [Reg.offset, .bincode, .code]) :
    State.readReg { s with offset := o, bincode := b, code := c } r = s.readReg r := by
  cases r with
  | offset | bincode | code => simp at h
  | _ => rfl

theorem readReg_setCounter (s : State) (v : DWord) {r : Reg}
    (h : r ∉ [Reg.counterLo, .counterHi, .msg0, .msg1]) :
    (s.setCounter v).readReg r = s.readReg r := by
  cases r with
  | counterLo | counterHi | msg0 | msg1 => simp at h
  | _ => rfl

theorem readReg_exec {i : Instr} {s t : State} (hi : i ≠ .reset) (h : exec i s = next t) {r : Reg}
    (hr : r ∉ commandWrites i) : t.readReg r = s.readReg r := by
  have hstatus : r ≠ .status := by rintro rfl; cases i <;> simp [commandWrites] at hr
  rcases exec_cases h hi with ⟨-, rfl⟩ | ⟨-, -, rfl⟩ | ⟨-, -, e, -, rfl⟩ | ⟨rfl, -, rfl⟩
    | ⟨rfl, -, -, rfl⟩ | ⟨-, -, -, rfl⟩ | ⟨-, -, rfl⟩ | ⟨-, rfl⟩
  case inr.inr.inr.inl =>
    have hresults : r ∉ [Reg.offset, .bincode, .code] := fun hm => hr (List.mem_cons_of_mem _ hm)
    exact (readReg_withFlags _ _ _ _ _ _ _ hstatus).trans (readReg_withResults s _ _ _ hresults)
  case inr.inr.inr.inr.inl =>
    have hcounter : r ∉ [Reg.counterLo, .counterHi, .msg0, .msg1] :=
      fun hm => hr (List.mem_cons_of_mem _ hm)
    exact (readReg_withFlags _ _ _ _ _ _ _ hstatus).trans (readReg_setCounter s _ hcounter)
  all_goals exact readReg_withFlags s _ _ _ _ _ _ hstatus

/-- Any list that holds the command's own registers will do. -/
theorem readsAsBefore_exec {i : Instr} {s t : State} (hi : i ≠ .reset) (h : exec i s = next t)
    {l : List Reg} (hl : commandWrites i ⊆ l) : readsAsBefore l s t :=
  readsAsBefore_of_regs fun _ hr => readReg_exec hi h fun hm => hr (hl hm)

/-- OVR is no command's, and CFG_VALID is CONFIG's alone. -/
theorem exec_ovr_cfgValid {i : Instr} {s t : State} (hi : i ≠ .reset) (h : exec i s = next t) :
    t.ovr = s.ovr ∧ (i ≠ .config → t.cfgValid = s.cfgValid) := by
  rcases exec_cases h hi with ⟨-, rfl⟩ | ⟨hc, -, rfl⟩ | ⟨hc, -, e, -, rfl⟩ | ⟨-, -, rfl⟩
    | ⟨-, -, -, rfl⟩ | ⟨-, -, -, rfl⟩ | ⟨-, -, rfl⟩ | ⟨-, rfl⟩
  case inr.inl => exact ⟨rfl, fun hn => absurd hc hn⟩
  case inr.inr.inl => exact ⟨rfl, fun hn => absurd hc hn⟩
  all_goals exact ⟨rfl, fun _ => rfl⟩

/-- Settles O33: each list of the statement holds what the commands it speaks of may change. -/
theorem commandFrame : Obligations.CommandFrame := by
  intro i s t hi h
  obtain ⟨hin, hturns, hans, hrst, -⟩ := exec_outside h
  obtain ⟨hovr, hcfg⟩ := exec_ovr_cfgValid hi h
  refine ⟨readsAsBefore_exec hi h ?_, fun hs => readsAsBefore_exec hi h ?_,
    fun ht => readsAsBefore_exec hi h ?_, hcfg, hovr, hrst, hin, hturns, hans⟩
  · cases i <;> simp [commandWrites]
  · cases i <;> simp [commandWrites] at hs ⊢
  · cases i <;> simp [commandWrites] at ht ⊢

/-! ### The digest buffer -/

/-- A byte of the buffer is a byte of its word. -/
theorem bufferByte_eq_readReg (s : State) (i : Fin 64) :
    s.bufferByte i = wordByte (s.readReg (.digest ⟨i.val / 4, by omega⟩)) (i.val % 4) := rfl

theorem bufferByte_of_word (s : State) (k : Fin 16) (j : Nat) (hj : j < 4) :
    s.bufferByte ⟨4 * k.val + j, by omega⟩ = wordByte (s.readReg (.digest k)) j := by
  have hword : (⟨(4 * k.val + j) / 4, by omega⟩ : Fin 16) = k := Fin.ext (by simp only; omega)
  have hbyte : (4 * k.val + j) % 4 = j := by omega
  rw [bufferByte_eq_readReg]
  simp only [hword, hbyte]

/-- After a store of DIGEST_k its bytes are those of the word stored. -/
theorem bufferByte_storeReg_same (s : State) (k : Fin 16) (w : Word) (a : BusAnswer) (j : Nat)
    (hj : j < 4) :
    ((s.storeReg (.digest k) w).answer a).bufferByte ⟨4 * k.val + j, by omega⟩ = wordByte w j := by
  rw [bufferByte_of_word _ k j hj, readReg_answer, readReg_storeReg_digest]

/-- A store of DIGEST_k leaves the bytes of the other words. -/
theorem bufferByte_storeReg_other (s : State) (k : Fin 16) (w : Word) (a : BusAnswer) {i : Fin 64}
    (h : i.val / 4 ≠ k.val) :
    ((s.storeReg (.digest k) w).answer a).bufferByte i = s.bufferByte i := by
  rw [bufferByte_eq_readReg, bufferByte_eq_readReg, readReg_answer, readReg_storeReg_of_not_view]
  simpa [viewsOf, Fin.ext_iff] using h

/-- A word is its four bytes, the first on top (R67). -/
theorem wordByte_append (w : Word) :
    wordByte w 0 ++ wordByte w 1 ++ wordByte w 2 ++ wordByte w 3 = w := by
  apply BitVec.eq_of_toNat_eq
  have := w.isLt
  simp only [toNat_append, wordByte_toNat w 0 (by decide), wordByte_toNat w 1 (by decide),
    wordByte_toNat w 2 (by decide), wordByte_toNat w 3 (by decide)]
  omega

/-- The four bytes of a word packed as R67 says. -/
theorem wordByte_of_append (b0 b1 b2 b3 : Byte) :
    wordByte (b0 ++ b1 ++ b2 ++ b3) 0 = b0 ∧ wordByte (b0 ++ b1 ++ b2 ++ b3) 1 = b1
      ∧ wordByte (b0 ++ b1 ++ b2 ++ b3) 2 = b2 ∧ wordByte (b0 ++ b1 ++ b2 ++ b3) 3 = b3 := by
  have := b0.isLt; have := b1.isLt; have := b2.isLt; have := b3.isLt
  refine ⟨?_, ?_, ?_, ?_⟩ <;> apply BitVec.eq_of_toNat_eq <;>
    rw [wordByte_toNat _ _ (by decide)] <;> simp only [toNat_append] <;> omega

/-- Settles O21: each byte is one of the four of its word, and a word changes by its own write only. -/
theorem digestBytesArePackedBigEndian : Obligations.DigestBytesArePackedBigEndian := by
  refine ⟨fun s k => ?_, by decide, fun s k b0 b1 b2 b3 hr hb => ?_, fun i s t hi h j => ?_⟩
  · have h0 := bufferByte_of_word s k 0 (by decide)
    have h1 := bufferByte_of_word s k 1 (by decide)
    have h2 := bufferByte_of_word s k 2 (by decide)
    have h3 := bufferByte_of_word s k 3 (by decide)
    have hread : s.readOffset (BitVec.ofNat 8 (0x80 + 4 * k.val)) = s.readReg (.digest k) :=
      readOffset_addr s (.digest k)
    rw [hread, h1, h2, h3, show s.bufferByte ⟨4 * k.val, _⟩ = _ from h0, wordByte_append]
  · obtain ⟨e0, e1, e2, e3⟩ := wordByte_of_append b0 b1 b2 b3
    have hbyte := bufferByte_storeReg_same s k (b0 ++ b1 ++ b2 ++ b3) writeAnswer
    exact ⟨_, busStep_write_idle hr hb (r := .digest k) rfl _,
      (hbyte 0 (by decide)).trans e0, (hbyte 1 (by decide)).trans e1,
      (hbyte 2 (by decide)).trans e2, (hbyte 3 (by decide)).trans e3,
      fun _ hne => bufferByte_storeReg_other s k _ _ hne⟩
  · rw [bufferByte_eq_readReg, bufferByte_eq_readReg, readReg_exec hi h]
    cases i <;> simp [commandWrites]

end Sys2Proof.Machine
end

section
/-!
SUPPORT. Who writes the flags (R27 to R30, R49): what one step can do to DONE, ERR, ERRCODE and OVR, with the
cause of each change.
-/

namespace Sys2Proof.Machine

open Host.Outcome (next)

/-- DONE, ERR and ERRCODE, the flags of the last command, are as before. -/
abbrev sameCommandFlags (s t : State) : Prop :=
  t.done = s.done ∧ t.err = s.err ∧ t.errcode = s.errcode

/-- The kinds of effect that transaction `x` has on these flags and OVR: none, a STATUS write, the RESET
word, an acceptance, a dropped write (R24, R64, R65, R105, R195). -/
inductive TxnFlagEffect (x : Txn) (s t : State) : Prop where
  | none (ho : t.ovr = s.ovr) (hc : sameCommandFlags s t)
  | statusWrite (v : Word) (hx : x = ⟨.write, 0x08, .word, v⟩)
      (ho : t.ovr = (s.ovr && !v.getLsbD 8)) (hc : sameCommandFlags s t)
  | reset (hx : x = cmdTxn (encode .reset)) (ho : t.ovr = false) (hb : t.busy = false)
  | accepted (w : Word) (hx : x = cmdTxn w) (hb : s.busy = false) (ho : t.ovr = s.ovr)
  | dropped (a : Offset) (v : Word) (hx : x = ⟨.write, a, .word, v⟩) (hb : s.busy = true)
      (ho : t.ovr = true) (hc : sameCommandFlags s t)

/-- The kinds of effect that a step has on them: none, a completion, that of the transaction which is the
next input, rst_n going low. -/
inductive StepFlagEffect (s t : State) : Prop where
  | none (ho : t.ovr = s.ovr) (hc : sameCommandFlags s t)
  | completion (hb : s.busy = true) (hb' : t.busy = false) (ho : t.ovr = s.ovr)
  | txn (x : Txn) (hin : s.inputs.head? = some (.bus x)) (he : TxnFlagEffect x s t)
  | pinLow (hin : s.inputs.head? = some (.rst false)) (ho : t.ovr = false)

theorem busStep_flags {x : Txn} {s t : State} (h : busStep x s = next t) : TxnFlagEffect x s t := by
  obtain ⟨-, a, hc⟩ := busStep_cases h
  rcases hc with ⟨v, hx, rfl⟩ | ⟨hx, rfl⟩ | ⟨w, hx, -, hb, rfl⟩ | ⟨r, v, -, -, -, rfl⟩
    | ⟨b, v, hx, hb, rfl⟩ | rfl
  · exact .statusWrite v hx rfl ⟨rfl, rfl, rfl⟩
  · exact .reset hx rfl rfl
  · exact .accepted w hx hb rfl
  · obtain ⟨-, -, hd, he, hc, ho, -⟩ := storeReg_frame r v s
    exact .none ho ⟨hd, he, hc⟩
  · exact .dropped b v hx hb rfl ⟨rfl, rfl, rfl⟩
  · exact .none rfl ⟨rfl, rfl, rfl⟩

/-- Of the inputs only a transaction and rst_n going low reach the flags. -/
theorem performInput_flags {i : Input} {s t : State} (h : performInput i s = next t) :
    (t.ovr = s.ovr ∧ sameCommandFlags s t) ∨ (∃ x, i = .bus x ∧ TxnFlagEffect x s t)
      ∨ (i = .rst false ∧ t.ovr = false) := by
  rcases performInput_cases h with ⟨x, hi, hb⟩ | ⟨-, -, -, rfl⟩ | ⟨-, -, -, rfl⟩ | ⟨-, rfl⟩
    | ⟨-, rfl⟩ | ⟨hi, rfl⟩
  case inl => exact Or.inr (Or.inl ⟨x, hi, busStep_flags hb⟩)
  case inr.inr.inr.inr.inr => exact Or.inr (Or.inr ⟨hi, rfl⟩)
  all_goals exact Or.inl ⟨rfl, rfl, rfl, rfl⟩

/-- What is outside the unit has no part in the effect. -/
theorem TxnFlagEffect.of_withOutside {x : Txn} {s t : State} {is : List Input} {ts : List Agent}
    (h : TxnFlagEffect x { s with inputs := is, turns := ts } t) : TxnFlagEffect x s t := by
  cases h with
  | none ho hc => exact .none ho hc
  | statusWrite v hx ho hc => exact .statusWrite v hx ho hc
  | reset hx ho hb => exact .reset hx ho hb
  | accepted w hx hb ho => exact .accepted w hx hb ho
  | dropped a v hx hb ho hc => exact .dropped a v hx hb ho hc

theorem step_flags {s t : State} (hn : s.PendingNotReset) (h : step s = next t) :
    StepFlagEffect s t := by
  rcases step_cases h with ⟨-, rfl⟩ | ⟨w, -, hp, he⟩ | ⟨i, rest, -, hin, hi⟩
  · exact .none rfl ⟨rfl, rfl, rfl⟩
  · obtain ⟨-, -, -, -, hpt⟩ := exec_outside he
    have hovr := (exec_ovr_cfgValid (decode_ne_reset_of_pend hn hp) he).1
    exact .completion (by simp [State.busy, hp]) (by simp [State.busy, hpt]) hovr
  · have hhead : s.inputs.head? = some i := by rw [hin]; rfl
    rcases performInput_flags hi with ⟨ho, hc⟩ | ⟨x, rfl, hx⟩ | ⟨rfl, ho⟩
    · exact .none ho hc
    · exact .txn x hhead (TxnFlagEffect.of_withOutside hx)
    · exact .pinLow hhead ho

/-- Settles O40: each kind of effect names the cause that the statement asks for. -/
theorem whoWritesTheFlags : Obligations.WhoWritesTheFlags := by
  intro s t hn h
  have hset {p : Prop} (h1 : t.ovr = false ∨ t.ovr = s.ovr) (h2 : s.ovr = false)
      (h3 : t.ovr = true) : p := by simp_all
  have hclear {p : Prop} (h1 : t.ovr = true ∨ t.ovr = s.ovr) (h2 : s.ovr = true)
      (h3 : t.ovr = false) : p := by simp_all
  cases step_flags hn h with
  | none ho hc => exact ⟨hset (.inr ho), hclear (.inr ho), fun hne => absurd hc hne⟩
  | completion hb hb' ho => exact ⟨hset (.inr ho), hclear (.inr ho), fun _ => .inl ⟨hb, hb'⟩⟩
  | pinLow hin ho =>
    exact ⟨hset (.inl ho), fun _ _ => .inr (.inr hin), fun _ => .inr (.inr hin)⟩
  | txn x hin he =>
    cases he with
    | none ho hc => exact ⟨hset (.inr ho), hclear (.inr ho), fun hne => absurd hc hne⟩
    | statusWrite v hx ho hc =>
      subst hx
      refine ⟨fun h0 h1 => ?_, fun h1 h0 => .inl ⟨v, hin, ?_⟩, fun hne => absurd hc hne⟩
      · rw [ho, h0] at h1; cases h1
      · rw [ho, h1] at h0; simpa using h0
    | reset hx ho hb =>
      subst hx
      refine ⟨hset (.inl ho), fun _ _ => .inr (.inl hin), fun _ => ?_⟩
      cases hs : s.busy with
      | true => exact .inl ⟨rfl, hb⟩
      | false => exact .inr (.inl ⟨rfl, _, hin⟩)
    | accepted w hx hb ho =>
      subst hx
      exact ⟨hset (.inr ho), hclear (.inr ho), fun _ => .inr (.inl ⟨hb, w, hin⟩)⟩
    | dropped a v hx hb ho hc =>
      subst hx
      exact ⟨fun _ _ => ⟨hb, a, v, hin⟩, hclear (.inl ho), fun hne => absurd hc hne⟩

end Sys2Proof.Machine
end

section
/-!
SUPPORT. Bus transactions (R62 to R65, R68 to R70, R87, R195): what each kind of transaction answers and
does, busy or idle, and the two writes of WR64.
-/

namespace Sys2Proof.Machine

open Host.Outcome (next)

/-! ### What a store leaves alone outside the registers -/

section
variable (r : Reg) (v : Word) (s : State)

@[simp] theorem busy_storeReg : (s.storeReg r v).busy = s.busy := by cases r <;> rfl
@[simp] theorem rstN_storeReg : (s.storeReg r v).rstN = s.rstN := by cases r <;> rfl
@[simp] theorem inputs_storeReg : (s.storeReg r v).inputs = s.inputs := by cases r <;> rfl
@[simp] theorem answers_storeReg : (s.storeReg r v).answers = s.answers := by cases r <;> rfl

end

/-! ### Illegal transactions and reads -/

/-- An illegal transaction is answered and does nothing more (R62). -/
theorem busStep_illegal {s : State} (hr : s.rstN = true) {t : Txn}
    (h : ¬(t.size = .word ∧ t.addr.toNat % 4 = 0)) : busStep t s = next (s.answer busErrorAnswer) := by
  have hl : t.legal = false := by rw [← legal_iff] at h; simpa using h
  simp [busStep, hr, hl]

/-- Every transaction gives one answer. -/
theorem busStep_answers {t : Txn} {s u : State} (h : busStep t s = next u) :
    ∃ a, u.answers = a :: s.answers := by
  obtain ⟨-, a, hc⟩ := busStep_cases h
  refine ⟨a, ?_⟩
  rcases hc with ⟨v, -, rfl⟩ | ⟨-, rfl⟩ | ⟨w, -, -, -, rfl⟩ | ⟨r, v, -, -, -, rfl⟩
    | ⟨-, -, -, -, rfl⟩ | rfl
  case inr.inr.inr.inl => exact congrArg (a :: ·) (answers_storeReg r v s)
  all_goals rfl

/-- A legal write does what `legalWrite` does, and is answered with err = 0. -/
theorem busStep_of_legalWrite {s t : State} (hr : s.rstN = true) {a : Offset} {v : Word}
    (ha : a.toNat % 4 = 0) (h : legalWrite a v s = next t) :
    busStep ⟨.write, a, .word, v⟩ s = next (t.answer writeAnswer) := by
  rw [busStep_write hr a v ha, h]; rfl

/-- Settles O11: an illegal transaction is only answered; the answer of a legal one is that of its kind. -/
theorem illegalAccessChangesNothing : Obligations.IllegalAccessChangesNothing := by
  refine fun s t hr => ⟨busStep_illegal hr, ?_⟩
  obtain ⟨k, b, z, v⟩ := t
  rintro ⟨rfl, ha⟩
  cases k with
  | read => exact ⟨_, readAnswer (s.readOffset b), busStep_read hr b v ha, rfl, rfl⟩
  | write =>
    obtain ⟨x, hx⟩ := legalWrite_next b v s
    have hstep := busStep_of_legalWrite hr ha hx
    obtain ⟨a, hans⟩ := busStep_answers hstep
    obtain rfl : writeAnswer = a := (List.cons.inj hans).1
    exact ⟨_, writeAnswer, hstep, hans, rfl⟩

theorem regAt_eq_none_of_no_register {a : Offset} (h : ∀ r : Reg, r.addr ≠ a) : regAt a = none :=
  Option.eq_none_iff_forall_ne_some.2 fun r hr => h r (addr_of_regAt a r hr)

/-- Settles O12: a read is answered with the register's value and does nothing more. -/
theorem readsReturnTheRegisterAndChangeNothing :
    Obligations.ReadsReturnTheRegisterAndChangeNothing := by
  refine fun s a v hr ha => ⟨busStep_read hr a v ha, ?_, ?_, fun h => ?_⟩
  · rintro r rfl; exact readOffset_addr s r
  · rintro rfl; exact readOffset_addr s .cmd
  · exact readOffset_of_reserved s (regAt_eq_none_of_no_register h)

/-! ### Legal writes, by the register they lead to -/

theorem busStep_write_status {s : State} (hr : s.rstN = true) (v : Word) :
    busStep ⟨.write, 0x08, .word, v⟩ s = next ((s.writeStatus v).answer writeAnswer) :=
  busStep_of_legalWrite hr rfl rfl

/-- The RESET word is performed in the step of its write, busy or not (R65, R191). -/
theorem busStep_write_reset {s : State} (hr : s.rstN = true) :
    busStep ⟨.write, 0x04, .word, 0x0000000F#32⟩ s = next (s.resetUnit.answer writeAnswer) :=
  busStep_of_legalWrite hr rfl rfl

theorem legalWrite_cmd_of_ne_reset (s : State) {v : Word} (hv : v ≠ 0x0000000F#32) :
    legalWrite 0x04 v s = if s.busy then next s.dropWrite else next (s.accept v) :=
  if_neg hv

/-- A command word is dropped while busy (R65). -/
theorem busStep_write_cmd_busy {s : State} (hr : s.rstN = true) (hb : s.busy = true) {v : Word}
    (hv : v ≠ 0x0000000F#32) :
    busStep ⟨.write, 0x04, .word, v⟩ s = next (s.dropWrite.answer writeAnswer) :=
  busStep_of_legalWrite hr rfl ((legalWrite_cmd_of_ne_reset s hv).trans (if_pos hb))

/-- A command word is accepted while idle (R195). -/
theorem busStep_write_cmd_idle {s : State} (hr : s.rstN = true) (hb : s.busy = false) {v : Word}
    (hv : v ≠ 0x0000000F#32) :
    busStep ⟨.write, 0x04, .word, v⟩ s = next ((s.accept v).answer writeAnswer) :=
  busStep_of_legalWrite hr rfl ((legalWrite_cmd_of_ne_reset s hv).trans (if_neg (by simp [hb])))

/-- A write of a read-only register is ignored (R64). -/
theorem busStep_write_readOnly {s : State} (hr : s.rstN = true) {r : Reg} (h : r.access = .readOnly)
    (v : Word) : busStep ⟨.write, r.addr, .word, v⟩ s = next (s.answer writeAnswer) :=
  busStep_of_legalWrite hr (addr_aligned r) (by rw [legalWrite_addr, h])

/-- A write of a reserved offset is ignored (R48). -/
theorem busStep_write_reserved {s : State} (hr : s.rstN = true) {a : Offset} (ha : a.toNat % 4 = 0)
    (h : regAt a = none) (v : Word) :
    busStep ⟨.write, a, .word, v⟩ s = next (s.answer writeAnswer) :=
  busStep_of_legalWrite hr ha (legalWrite_of_reserved s v h)

theorem access_of_mem_readOnly : ∀ r ∈ [Reg.id, .msg0, .msg1, .offset, .bincode, .code, .dlenEff],
    r.access = .readOnly := by decide

theorem access_of_mem_operands :
    ∀ r ∈ [Reg.cfg, .dlen, .tstep, .baseLo, .baseHi, .nowLo, .nowHi, .counterLo, .counterHi],
      r.access = .readWrite := by decide

/-- No transaction with an idle unit sets OVR (R30). -/
theorem ovr_of_busStep_idle {x : Txn} {s t : State} (hb : s.busy = false) (h : busStep x s = next t)
    (ht : t.ovr = true) : s.ovr = true := by
  cases busStep_flags h with
  | none ho _ => exact ho ▸ ht
  | statusWrite v _ ho _ => rw [ho] at ht; exact Bool.and_elim_left ht
  | reset _ ho _ => rw [ho] at ht; cases ht
  | accepted w _ _ ho => exact ho ▸ ht
  | dropped a v _ hb' _ _ => rw [hb] at hb'; cases hb'

/-- Settles O13: by the register that the offset leads to; on an idle unit the one outcome of the write is
that of the register's own rule. -/
theorem writesWhileBusy : Obligations.WritesWhileBusy := by
  refine ⟨fun s v hr hb => ?_, fun s a v hr hb ha => ?_⟩
  · exact ⟨busStep_write_status hr v, busStep_write_reset hr, busStep_write_cmd_busy hr hb,
      fun r hm => busStep_write_busy hr hb (access_of_mem_operands r hm) v,
      fun k => busStep_write_busy hr hb (r := .digest k) rfl v,
      fun r hm => busStep_write_readOnly hr (access_of_mem_readOnly r hm) v,
      fun a ha hn => busStep_write_reserved hr ha hn v⟩
  · obtain ⟨x, hx⟩ := legalWrite_next a v s
    have hstep := busStep_of_legalWrite hr ha hx
    have hdet {u : State} (hu : busStep ⟨.write, a, .word, v⟩ s = next u) 
        : x.answer writeAnswer = u :=
      Host.Outcome.next.inj (hstep.symm.trans hu)
    refine ⟨_, hstep, ovr_of_busStep_idle hb hstep, ?_, ?_, ?_, ?_, ?_, ?_⟩
    · rintro r hacc rfl; exact hdet (busStep_write_idle hr hb hacc v)
    · rintro rfl; exact hdet (busStep_write_status hr v)
    · rintro rfl rfl; exact hdet (busStep_write_reset hr)
    · rintro rfl hv; rw [hdet (busStep_write_cmd_idle hr hb hv)]; rfl
    · rintro r hm rfl; exact hdet (busStep_write_readOnly hr (access_of_mem_readOnly r hm) v)
    · exact fun hn => hdet (busStep_write_reserved hr ha hn v)

/-! ### Operand writes done twice, and register pairs -/

theorem storeReg_storeReg (r : Reg) (v : Word) (s : State) :
    (s.storeReg r v).storeReg r v = s.storeReg r v := by
  cases r with
  | digest k => simp [State.storeReg]
  | _ => rfl

theorem legalWrite_operand_idle {s : State} (hb : s.busy = false) {r : Reg} (h : r.access = .readWrite)
    (v : Word) : legalWrite r.addr v s = next (s.storeReg r v) := by
  rw [legalWrite_readWrite s v h, hb]; rfl

/-- Settles O17: the first store leaves the unit idle, and the second stores the same bits again. -/
theorem operandWritesAreIdempotent : Obligations.OperandWritesAreIdempotent :=
  fun r v s _ hb h =>
    ⟨_, _, legalWrite_operand_idle hb h v,
      legalWrite_operand_idle ((busy_storeReg r v s).trans hb) h v, storeReg_storeReg r v s⟩

/-- The 64-bit value that a pair holds (R68). -/
def RegPair.value : RegPair → State → DWord
  | .base, s => s.base
  | .now, s => s.now
  | .counter, s => s.counter

theorem RegPair.access_halves (x : RegPair) :
    x.lo.access = .readWrite ∧ x.hi.access = .readWrite := by
  cases x <;> exact ⟨rfl, rfl⟩

/-- The stores of the two halves make the value of the pair. -/
theorem RegPair.value_of_stores (x : RegPair) (lo hi : Word) (s : State) (a b : BusAnswer)
    (is : List Input) :
    x.value ((State.storeReg x.hi hi { (s.storeReg x.lo lo).answer a with inputs := is }).answer b)
      = joinWords hi lo := by
  cases x <;> rfl

/-- The two writes of `WR64 X, v` are two steps of an idle unit, and leave v in the pair (R68, R87). -/
theorem run_wr64 (x : RegPair) {s : State} {v : Int} {rest : List Input} (hr : s.rstN = true)
    (hb : s.busy = false) (hi : s.inputs = wr64 x v ++ rest) :
    ∃ t, core.run 2 s = next t ∧ x.value t = BitVec.ofInt 64 v ∧ t.inputs = rest := by
  obtain ⟨hlo, hhi⟩ := x.access_halves
  have hfirst := step_wr hr hb hlo hi
  refine ⟨_, (run_succ hfirst 1).trans
    (run_succ (step_wr (v := highWord (BitVec.ofInt 64 v)) (rest := rest) ?_ ?_ hhi ?_) 0), ?_, ?_⟩
  · exact (rstN_storeReg ..).trans hr
  · exact (busy_storeReg ..).trans hb
  · exact inputs_storeReg ..
  · exact (x.value_of_stores ..).trans (joinWords_high_low _)
  · exact inputs_storeReg ..

/-- Settles O18: pair by pair; msg_out is COUNTER in every state. -/
theorem wrSixtyFourSetsThePair : Obligations.WrSixtyFourSetsThePair := by
  refine fun s v rest hr hb => ⟨run_wr64 .base hr hb, run_wr64 .now hr hb, fun hi => ?_⟩
  obtain ⟨t, hrun, hval, hin⟩ := run_wr64 .counter hr hb hi
  exact ⟨t, hrun, hval, msgOut_eq_counter t, hin⟩

end Sys2Proof.Machine
end

section
/-!
SUPPORT. The decoder (R80, R82 to R84): a command word is its two fields, decoding and encoding are inverse, and
which words are illegal.
-/

namespace Sys2Proof

/-! ### A word and its fields -/

theorem fields_of_append_eq {op : BitVec 8} {rsv : BitVec 24} {w : Word} (h : rsv ++ op = w) :
    opField w = op ∧ rsvField w = rsv := by
  subst h
  exact ⟨opField_append op rsv, rsvField_append op rsv⟩

/-- A word with RSV = 0 is its opcode. -/
theorem eq_ofNat_of_opcode {w : Word} {n : Nat} (hrsv : w.toNat / 256 = 0)
    (hop : w.toNat % 256 = n) : w = BitVec.ofNat 32 n := by
  apply BitVec.eq_of_toNat_eq
  rw [BitVec.toNat_ofNat]; omega

/-- R85 with the fields as numbers. -/
theorem wellFormed_badcmd_iff (op : BitVec 8) (rsv : BitVec 24) :
    Instr.wellFormed (.badcmd op rsv) = true
      ↔ rsv.toNat ≠ 0 ∨ (4 ≤ op.toNat ∧ op.toNat ≠ 0x0F) := by
  simp [Instr.wellFormed, definedOpcodes, ← BitVec.toNat_inj]
  omega

/-! ### Decoding and encoding are inverse (R83) -/

theorem wellFormed_decode (w : Word) : (decode w).wellFormed = true := by
  rcases decode_cases w with ⟨-, hd⟩ | ⟨-, hd⟩ | ⟨-, hd⟩ | ⟨-, hd⟩ | ⟨-, hd⟩ | ⟨hd, hwf⟩
  case inr.inr.inr.inr.inr => rwa [hd]
  all_goals rw [hd]; rfl

theorem encode_decode (w : Word) : encode (decode w) = w := by
  rcases decode_cases w with ⟨hw, hd⟩ | ⟨hw, hd⟩ | ⟨hw, hd⟩ | ⟨hw, hd⟩ | ⟨hw, hd⟩ | ⟨hd, -⟩
  case inr.inr.inr.inr.inr => rw [hd]; exact rsvField_append_opField w
  all_goals rw [hd, hw]; rfl

/-- The fields of a well-formed BADCMD are those of no defined word. -/
theorem decode_append {op : BitVec 8} {rsv : BitVec 24}
    (h : Instr.wellFormed (.badcmd op rsv) = true) : decode (rsv ++ op) = .badcmd op rsv := by
  rcases decode_cases (rsv ++ op) with ⟨hw, -⟩ | ⟨hw, -⟩ | ⟨hw, -⟩ | ⟨hw, -⟩ | ⟨hw, -⟩ | ⟨hd, -⟩
  case inr.inr.inr.inr.inr => rw [hd, opField_append, rsvField_append]
  all_goals
    obtain ⟨rfl, rfl⟩ := fields_of_append_eq hw
    exact absurd h (by decide)

theorem decode_encode {i : Instr} (h : i.wellFormed = true) : decode (encode i) = i := by
  cases i with
  | badcmd op rsv => exact decode_append h
  | _ => rfl

/-- Settles O3: the round trip from either side, a defined word or the two fields of BADCMD. -/
theorem decodeAndEncodeAgree : Obligations.DecodeAndEncodeAgree :=
  ⟨fun _ => decode_encode, fun w => ⟨wellFormed_decode w, encode_decode w⟩⟩

/-- Settles O1: the words of the table are those of the encoder. -/
theorem decodeOfTableWords : Obligations.DecodeOfTableWords :=
  ⟨decode_encode (i := .nop) rfl, decode_encode (i := .config) rfl, decode_encode (i := .trunc) rfl,
    decode_encode (i := .steps) rfl, decode_encode (i := .reset) rfl,
    decode_encode (i := .badcmd 0x04 0) rfl, decode_encode (i := .badcmd 0xFF 0) rfl,
    decode_encode (i := .badcmd 0x0F 1) rfl⟩

/-! ### The illegal words (R83, R85) -/

/-- A word is illegal exactly when its fields are those of a well-formed BADCMD. -/
theorem decode_eq_badcmd_iff_wellFormed (w : Word) :
    (∃ op rsv, decode w = .badcmd op rsv)
      ↔ Instr.wellFormed (.badcmd (opField w) (rsvField w)) = true := by
  constructor
  · rintro ⟨op, rsv, h⟩
    have hw : rsv ++ op = w := by have he := encode_decode w; rwa [h] at he
    obtain ⟨hop, hrsv⟩ := fields_of_append_eq hw
    rw [hop, hrsv, ← h]
    exact wellFormed_decode w
  · intro h
    have hd := decode_append h
    rw [rsvField_append_opField] at hd
    exact ⟨_, _, hd⟩

/-- R85 with the word as a number. -/
theorem decode_eq_badcmd_iff (w : Word) :
    (∃ op rsv, decode w = .badcmd op rsv)
      ↔ w.toNat / 256 ≠ 0 ∨ (4 ≤ w.toNat % 256 ∧ w.toNat % 256 ≠ 0x0F) := by
  rw [decode_eq_badcmd_iff_wellFormed, wellFormed_badcmd_iff, rsvField_toNat, opField_toNat]

/-- Settles O2: with RSV = 0 the opcode is the word, and the other values are the illegal words. -/
theorem decodeFollowsOpcodeField : Obligations.DecodeFollowsOpcodeField := by
  refine fun w => ⟨fun hrsv => (decode_eq_badcmd_iff w).2 (.inl hrsv), fun hrsv => ?_⟩
  have hdefined {n : Nat} {i : Instr} (hop : w.toNat % 256 = n) (hd : decode (BitVec.ofNat 32 n) = i) :
      decode w = i := by rw [eq_ofNat_of_opcode hrsv hop, hd]
  refine ⟨(hdefined · rfl), (hdefined · rfl), (hdefined · rfl), (hdefined · rfl), (hdefined · rfl),
    fun hop => (decode_eq_badcmd_iff w).2 (.inr ?_)⟩
  simp only [List.mem_cons, List.not_mem_nil, or_false] at hop
  omega

end Sys2Proof
end

section
/-!
SUPPORT. Illegal words on the bus (R65, R84, R85): dropped while busy, else accepted, completed with E_BADCMD.
-/

namespace Sys2Proof.Machine

open Host.Outcome (next)

theorem decode_eq_reset_iff (w : Word) : decode w = .reset ↔ w = 0x0000000F#32 :=
  ⟨eq_encode_reset_of_decode, fun h => by rw [h]; rfl⟩

theorem ne_reset_word_of_decode {w : Word} {i : Instr} (hd : decode w = i) (hi : i ≠ .reset) :
    w ≠ 0x0000000F#32 :=
  fun hw => hi (hd.symm.trans ((decode_eq_reset_iff w).2 hw))

/-- Settles O4: a word with RSV ≠ 0 has the fields of a well-formed BADCMD, so it is not the RESET word. -/
theorem resetHasOneEncoding : Obligations.ResetHasOneEncoding := by
  refine ⟨decode_eq_reset_iff, fun s w hop hrsv => ?_⟩
  have hwf : Instr.wellFormed (.badcmd 0x0F#8 (rsvField w)) = true := by simp [Instr.wellFormed, hrsv]
  have hd : decode w = .badcmd 0x0F#8 (rsvField w) := by
    have := decode_append hwf
    rwa [← hop, rsvField_append_opField, hop] at this
  exact ⟨hd, fun hr hb => busStep_write_cmd_busy hr hb (ne_reset_word_of_decode hd nofun)⟩

/-! ### Acceptance and error in the window -/

theorem readReg_accept (s : State) (w : Word) {r : Reg} (h : r ≠ .status) :
    (s.accept w).readReg r = s.readReg r := by
  cases r with
  | status => exact absurd rfl h
  | _ => rfl

theorem readsAsBefore_accept (s : State) (w : Word) (a : BusAnswer) :
    readsAsBefore [.status] s ((s.accept w).answer a) :=
  readsAsBefore_of_regs fun r hr =>
    (readReg_answer _ a r).trans (readReg_accept s w fun h => hr (List.mem_singleton.2 h))

theorem readsAsBefore_trans {l : List Reg} {s t u : State} (hst : readsAsBefore l s t)
    (htu : readsAsBefore l t u) : readsAsBefore l s u :=
  fun a ha => (htu a ha).trans (hst a ha)

/-- Settles O32: acceptance and `raiseCmdError` each change STATUS and PEND only. -/
theorem illegalWordsCompleteWithBadcmd : Obligations.IllegalWordsCompleteWithBadcmd := by
  refine ⟨fun _ _ _ => rfl, decode_eq_badcmd_iff, ?_⟩
  rintro w s ⟨op, rsv, hd⟩ hr hb
  have haccept := busStep_write_cmd_idle hr hb (ne_reset_word_of_decode hd nofun)
  have hexec (t : State) : exec (.badcmd op rsv) t = next (t.raiseCmdError .badCmd) := rfl
  have hcomplete : sequencerStep ((s.accept w).answer writeAnswer)
      = next (((s.accept w).answer writeAnswer).raiseCmdError .badCmd) := by
    rw [← hexec, ← hd]; rfl
  have hreads := readsAsBefore_accept s w writeAnswer
  exact ⟨_, _, haccept, rfl, rfl, rfl, rfl, hreads, hcomplete, rfl, rfl, rfl, rfl, rfl, rfl,
    readsAsBefore_trans hreads
      (readsAsBefore_exec (i := .badcmd op rsv) nofun (hexec _) (List.Subset.refl _))⟩

end Sys2Proof.Machine
end

section
/-!
SUPPORT. WAIT and RUN (R86, R87, R196, R205): how a pending command and the host's WAIT go on together, whatever
the choices of who moves.
-/

namespace Sys2Proof.Machine

open Host.Outcome (next)

/-! ### What is outside the unit -/

/-- The unit with other inputs, choices and answers: what the host and the schedule change (log 18). -/
def State.withOutside (s : State) (is : List Input) (ts : List Agent) (as : List BusAnswer) : State :=
  { s with inputs := is, turns := ts, answers := as }

section
variable (s : State) (is is' : List Input) (ts ts' : List Agent) (as as' : List BusAnswer)

@[simp] theorem withOutside_withOutside :
    (s.withOutside is ts as).withOutside is' ts' as' = s.withOutside is' ts' as' := rfl

@[simp] theorem withOutside_busy : (s.withOutside is ts as).busy = s.busy := rfl
@[simp] theorem withOutside_statusWord : (s.withOutside is ts as).statusWord = s.statusWord := rfl
@[simp] theorem withOutside_rstN : (s.withOutside is ts as).rstN = s.rstN := rfl
@[simp] theorem withOutside_inputs : (s.withOutside is ts as).inputs = is := rfl
@[simp] theorem withOutside_turns : (s.withOutside is ts as).turns = ts := rfl
@[simp] theorem withOutside_answers : (s.withOutside is ts as).answers = as := rfl

@[simp] theorem readReg_withOutside (r : Reg) : (s.withOutside is ts as).readReg r = s.readReg r := by
  cases r <;> rfl

@[simp] theorem readOffset_withOutside (a : Offset) :
    (s.withOutside is ts as).readOffset a = s.readOffset a :=
  readsAsBefore_of_regs (l := []) (fun r _ => readReg_withOutside s is ts as r) a nofun

/-- A command does the same whatever is outside the unit. -/
theorem exec_withOutside (i : Instr) :
    exec i (s.withOutside is ts as) = Result.andThen (exec i s) (·.withOutside is ts as) := by
  cases i with
  | config =>
    simp only [exec, execConfig, State.withOutside]
    split <;> rfl
  | trunc =>
    have hcfg : (s.withOutside is ts as).cfgValid = s.cfgValid := rfl
    simp only [exec, execTrunc, hcfg]
    split <;> rfl
  | steps =>
    have hcfg : (s.withOutside is ts as).cfgValid = s.cfgValid := rfl
    have helapsed : (s.withOutside is ts as).elapsed = s.elapsed := rfl
    have htstep : (s.withOutside is ts as).tstep = s.tstep := rfl
    simp only [exec, execSteps, hcfg, helapsed, htstep]
    split
    · split <;> rfl
    · rfl
  | _ => rfl

end

/-! ### One move of either agent -/

/-- BUSY is the presence of a command in PEND (log 3). -/
theorem busy_of_pend {s : State} {p : Option Word} (hp : s.pend = p) : s.busy = p.isSome :=
  congrArg Option.isSome hp

/-- A completion, by the sequencer's move. -/
theorem step_sequencer {s : State} {w : Word} (hr : s.rstN = true) (hp : s.pend = some w)
    (h : s.inputs = [] ∨ s.turns.headD .sequencer = .sequencer) :
    step s = exec (decode w) s.spendTurn := by
  have hm : s.mover = some .sequencer := mover_sequencer hr (busy_of_pend hp) h
  simp [step, hm, sequencerStep, hp]

/-- The host's move on a busy unit uses up one choice. -/
theorem step_busy_host {s : State} {i : Input} {rest : List Input} {ts : List Agent}
    (hr : s.rstN = true) (hb : s.busy = true) (hi : s.inputs = i :: rest) (ht : s.turns = .host :: ts) :
    step s = performInput i (s.withOutside rest ts s.answers) := by
  have hc : s.contested = true := by simp [State.contested, State.sequencerEnabled, hr, hb, hi]
  have hm : s.mover = some .host := by simp [State.mover, hc, ht]
  have hs : s.spendTurn = s.withOutside s.inputs ts s.answers := by
    simp [State.spendTurn, hc, ht, State.withOutside]
  unfold step
  rw [hm]
  simp only [hostStep, hs, withOutside_inputs, hi]
  rfl

/-- The read of STATUS in WAIT is a read like any other (R63). -/
theorem busStep_statusRead {s : State} (hr : s.rstN = true) :
    busStep statusRead s = next (s.answer (readAnswer s.statusWord)) :=
  busStep_read hr (Reg.addr .status) 0 rfl

/-- One read of WAIT: on an idle unit it is the last one (R86). -/
theorem performInput_wait {s : State} (hr : s.rstN = true) :
    performInput .wait s
      = next (s.withOutside (if s.busy then .wait :: s.inputs else s.inputs) s.turns
          (readAnswer s.statusWord :: s.answers)) := by
  show waitStep s = _
  unfold waitStep
  rw [busStep_statusRead hr, statusWord_busy]
  cases s.busy <;> rfl

/-! ### WAIT on an idle and on a busy unit -/

theorem step_wait_idle {s : State} (hr : s.rstN = true) (hb : s.busy = false) (rest : List Input)
    (ts : List Agent) (as : List BusAnswer) :
    step (s.withOutside (.wait :: rest) ts as)
      = next (s.withOutside rest ts (readAnswer s.statusWord :: as)) := by
  have hstep : step (s.withOutside (.wait :: rest) ts as)
      = performInput .wait (s.withOutside rest ts as) :=
    step_idle_host (s := s.withOutside _ _ _) hb rfl
  rw [hstep, performInput_wait (s := s.withOutside rest ts as) hr]
  simp [hb]

/-- Where the host moves first, WAIT reads STATUS once and stays. -/
theorem step_wait_host {s : State} (hr : s.rstN = true) (hb : s.busy = true) (rest : List Input)
    (ts : List Agent) (as : List BusAnswer) :
    step (s.withOutside (.wait :: rest) (.host :: ts) as)
      = next (s.withOutside (.wait :: rest) ts (readAnswer s.statusWord :: as)) := by
  have hstep : step (s.withOutside (.wait :: rest) (.host :: ts) as)
      = performInput .wait (s.withOutside rest ts as) :=
    step_busy_host (s := s.withOutside _ _ _) hr hb rfl rfl
  rw [hstep, performInput_wait (s := s.withOutside rest ts as) hr]
  simp [hb]

/-- Where the sequencer moves first, the command completes and WAIT finds an idle unit. -/
theorem run_wait_sequencer {s u : State} {w : Word} (hr : s.rstN = true) (hp : s.pend = some w)
    (hx : exec (decode w) s = next u) (rest : List Input) {ts : List Agent}
    (ht : ts.headD .sequencer = .sequencer) (as : List BusAnswer) :
    core.run 2 (s.withOutside (.wait :: rest) ts as)
      = next (u.withOutside rest ts.tail (readAnswer u.statusWord :: as)) := by
  obtain ⟨-, -, -, hru, hpu⟩ := exec_outside hx
  have hcompletion : step (s.withOutside (.wait :: rest) ts as)
      = next (u.withOutside (.wait :: rest) ts.tail as) := by
    have hspent : (s.withOutside (.wait :: rest) ts as).spendTurn
        = s.withOutside (.wait :: rest) ts.tail as := by
      simp [State.spendTurn, State.contested, State.sequencerEnabled, State.busy, hr, hp,
        State.withOutside]
    rw [step_sequencer (s := s.withOutside (.wait :: rest) ts as) hr hp (.inr ht), hspent,
      exec_withOutside, hx]
    rfl
  have hwait := step_wait_idle (hru.trans hr) (busy_of_pend hpu) rest ts.tail as
  exact (run_succ hcompletion 1).trans (run_succ hwait 0)

/-- WAIT over a pending command: however often the host reads first, the command completes as it would
at once, and the last read shows the completed STATUS (R86, R196, R205). -/
theorem run_wait_pending {s u : State} {w : Word} (hr : s.rstN = true) (hp : s.pend = some w)
    (hx : exec (decode w) s = next u) (rest : List Input) (ts : List Agent) (as : List BusAnswer) :
    ∃ k ts' as', k ≤ ts.length + 2 ∧ core.run k (s.withOutside (.wait :: rest) ts as)
      = next (u.withOutside rest ts' (readAnswer u.statusWord :: as')) := by
  induction ts generalizing as with
  | nil => exact ⟨2, _, _, le_rfl, run_wait_sequencer hr hp hx rest rfl as⟩
  | cons a ts ih =>
    cases a with
    | sequencer => exact ⟨2, _, _, by simp, run_wait_sequencer hr hp hx rest rfl as⟩
    | host =>
      have hb : s.busy = true := busy_of_pend hp
      obtain ⟨k, ts', as', hk, hrun⟩ := ih (readAnswer s.statusWord :: as)
      refine ⟨k + 1, ts', as', by simpa using hk, ?_⟩
      exact (run_succ (step_wait_host hr hb rest ts as) k).trans hrun

/-- WAIT from any state out of reset ends in a state of an idle unit that its last read has seen. -/
theorem run_wait {s : State} {rest : List Input} (hr : s.rstN = true)
    (hi : s.inputs = .wait :: rest) :
    ∃ (k : Nat) (u : State) (ts : List Agent) (as : List BusAnswer),
      k ≤ s.turns.length + 2 ∧ u.busy = false
      ∧ core.run k s = next (u.withOutside rest ts (readAnswer u.statusWord :: as)) := by
  have hs : s = s.withOutside (.wait :: rest) s.turns s.answers := by rw [← hi]; rfl
  cases hp : s.pend with
  | none =>
    have hb : s.busy = false := busy_of_pend hp
    have hstep := step_wait_idle hr hb rest s.turns s.answers
    rw [← hs] at hstep
    exact ⟨1, s, s.turns, s.answers, by omega, hb, run_succ hstep 0⟩
  | some w =>
    obtain ⟨u, hx⟩ := exec_next (decode w) s
    obtain ⟨-, -, -, -, hpu⟩ := exec_outside hx
    obtain ⟨k, ts, as, hk, hrun⟩ := run_wait_pending hr hp hx rest s.turns s.answers
    rw [← hs] at hrun
    exact ⟨k, u, ts, as, hk, busy_of_pend hpu, hrun⟩

/-- Settles O44: bit 0 of the STATUS that the last read has seen is BUSY of an idle unit. -/
theorem waitEnds : Obligations.WaitEnds := by
  intro s rest hr hi
  obtain ⟨k, u, ts, as, hk, hb, hrun⟩ := run_wait hr hi
  exact ⟨k, _, hk, hrun, rfl, hb, u.statusWord, as, rfl, (statusWord_busy u).trans hb⟩

/-! ### RUN -/

theorem encode_ne_reset_word {i : Instr} (hwf : i.wellFormed = true) (hi : i ≠ .reset) :
    encode i ≠ 0x0000000F#32 :=
  ne_reset_word_of_decode (decode_encode hwf) hi

/-- The write of a command's word to CMD on an idle unit is its acceptance (R87, R195). -/
theorem step_issue {i : Instr} {s : State} {rest : List Input} (hwf : i.wellFormed = true)
    (hi : i ≠ .reset) (hr : s.rstN = true) (hb : s.busy = false)
    (hin : s.inputs = issue i :: rest) :
    step s = next ((s.accept (encode i)).withOutside rest s.turns (writeAnswer :: s.answers)) := by
  rw [step_idle_host hb hin]
  exact busStep_write_cmd_idle (s := { s with inputs := rest }) hr hb (encode_ne_reset_word hwf hi)

/-- `RUN <cmd>` on an idle unit does what the command does right after its acceptance. -/
theorem run_runCmd {i : Instr} {s u : State} {rest : List Input} (hwf : i.wellFormed = true)
    (hi : i ≠ .reset) (hr : s.rstN = true) (hb : s.busy = false)
    (hin : s.inputs = runCmd i ++ rest) (hx : exec i (s.accept (encode i)) = next u) :
    ∃ k ts as, k ≤ s.turns.length + 3 ∧ core.run k s = next (u.withOutside rest ts as) := by
  have hd : exec (decode (encode i)) (s.accept (encode i)) = next u := by rw [decode_encode hwf, hx]
  have hissue := step_issue hwf hi hr hb hin
  obtain ⟨k, ts, as, hk, hrun⟩ :=
    run_wait_pending (s := s.accept (encode i)) hr rfl hd rest s.turns (writeAnswer :: s.answers)
  exact ⟨k + 1, ts, _, by omega, (run_succ hissue k).trans hrun⟩

/-- Settles O45: the run ends in the completion's own state, but for what is outside the unit. -/
theorem runGivesTheResultOnEverySchedule : Obligations.RunGivesTheResultOnEverySchedule := by
  intro i s rest hwf hi hr hb hin
  obtain ⟨u, hx⟩ := exec_next i (s.accept (encode i))
  obtain ⟨-, -, -, -, hpu⟩ := exec_outside hx
  obtain ⟨k, ts, as, hk, hrun⟩ := run_runCmd hwf hi hr hb hin hx
  exact ⟨k, _, u, hk, hrun, hx, rfl, busy_of_pend hpu,
    readOffset_withOutside u rest ts as⟩

end Sys2Proof.Machine
end

section
/-!
SUPPORT. LDDIG (R67, R87): the words it writes, byte by byte, and what its writes leave in the digest buffer.
-/

namespace Sys2Proof.Machine

open Host.Outcome (next)

/-- Byte j of a packed word is byte 4k + j of the sequence (R67). -/
theorem wordByte_packedWord (bytes : List Byte) (k : Nat) {j : Nat} (hj : j < 4) :
    wordByte (packedWord bytes k) j = bytes.getD (4 * k + j) 0 := by
  obtain ⟨h0, h1, h2, h3⟩ := wordByte_of_append (bytes.getD (4 * k) 0) (bytes.getD (4 * k + 1) 0)
    (bytes.getD (4 * k + 2) 0) (bytes.getD (4 * k + 3) 0)
  match j with
  | 0 => exact h0
  | 1 => exact h1
  | 2 => exact h2
  | 3 => exact h3

/-- The buffer after a store of DIGEST_k, byte by byte. -/
theorem bufferByte_storeReg (s : State) (k : Fin 16) (w : Word) (a : BusAnswer) (i : Fin 64) :
    ((s.storeReg (.digest k) w).answer a).bufferByte i
      = if i.val / 4 = k.val then wordByte w (i.val % 4) else s.bufferByte i := by
  split
  · rename_i hk
    have hi : i = ⟨4 * k.val + i.val % 4, by omega⟩ := Fin.ext (by simp only; omega)
    have hsame := bufferByte_storeReg_same s k w a (i.val % 4) (by omega)
    rwa [← hi] at hsame
  · rename_i hk
    exact bufferByte_storeReg_other s k w a hk

/-- A write of a digest word is one step of an idle unit, and leaves it idle. -/
theorem step_wr_digest {s : State} {k : Fin 16} {w : Word} {rest : List Input} (hr : s.rstN = true)
    (hb : s.busy = false) (hi : s.inputs = wr (.digest k) w :: rest) :
    ∃ u, step s = next u ∧ u.rstN = true ∧ u.busy = false ∧ u.inputs = rest
      ∧ ∀ i : Fin 64, u.bufferByte i
          = if i.val / 4 = k.val then wordByte w (i.val % 4) else s.bufferByte i :=
  ⟨_, step_wr hr hb rfl hi, hr, hb, rfl, bufferByte_storeReg { s with inputs := rest } k w writeAnswer⟩

/-- The writes of m words from DIGEST_j on. -/
def digestWrites (f : Nat → Word) (j m : Nat) : List Input :=
  (List.range' j m).map fun k => wr (.digest (Fin.ofNat 16 k)) (f k)

theorem digestWrites_succ (f : Nat → Word) (j m : Nat) :
    digestWrites f j (m + 1) = wr (.digest (Fin.ofNat 16 j)) (f j) :: digestWrites f (j + 1) m := rfl

/-- From an idle unit these writes put the words into their registers, and leave the other bytes. -/
theorem run_digestWrites (f : Nat → Word) {j m : Nat} {s : State} {rest : List Input} (hm : j + m ≤ 16)
    (hr : s.rstN = true) (hb : s.busy = false) (hi : s.inputs = digestWrites f j m ++ rest) :
    ∃ t, core.run m s = next t ∧ t.inputs = rest ∧ ∀ i : Fin 64, t.bufferByte i
      = if j ≤ i.val / 4 ∧ i.val / 4 < j + m then wordByte (f (i.val / 4)) (i.val % 4)
        else s.bufferByte i := by
  induction m generalizing j s with
  | zero => exact ⟨s, rfl, hi, fun i => (if_neg (by omega)).symm⟩
  | succ m ih =>
    rw [digestWrites_succ] at hi
    obtain ⟨u, hfirst, hru, hbu, hiu, hfirstBytes⟩ := step_wr_digest hr hb hi
    obtain ⟨t, hrun, hrest, hbytes⟩ := ih (j := j + 1) (by omega) hru hbu hiu
    refine ⟨t, (run_succ hfirst m).trans hrun, hrest, fun i => ?_⟩
    have hj : (Fin.ofNat 16 j).val = j := Nat.mod_eq_of_lt (by omega)
    rw [hbytes i, hfirstBytes i, hj]
    by_cases hij : i.val / 4 = j
    · rw [if_neg (by omega), if_pos hij, if_pos (by omega), hij]
    · rw [if_neg hij]
      exact if_congr (by omega) rfl rfl

theorem ldDig_of_le {bytes : List Byte} (h : bytes.length ≤ 64) :
    ldDig bytes = some (digestWrites (packedWord bytes) 0 ((bytes.length + 3) / 4)) := by
  rw [ldDig, if_pos h, List.range_eq_range']; rfl

/-- Settles O46: the words that LDDIG writes are its bytes packed, from DIGEST_0 on. -/
theorem ldDigLoadsTheDigest : Obligations.LdDigLoadsTheDigest := by
  refine ⟨fun bytes h => if_neg (by omega), fun bytes s rest h hr hb => ?_⟩
  have hlen : (digestWrites (packedWord bytes) 0 ((bytes.length + 3) / 4)).length
      = (bytes.length + 3) / 4 := by simp [digestWrites]
  refine ⟨_, ldDig_of_le h, hlen, fun hi => ?_⟩
  obtain ⟨t, hrun, hrest, hbytes⟩ := run_digestWrites (packedWord bytes) (by omega) hr hb hi
  refine ⟨t, by rwa [hlen], hrest, fun i => ?_⟩
  rw [hbytes i, hlen, wordByte_packedWord bytes _ (Nat.mod_lt _ (by decide)), Nat.div_add_mod]
  exact if_congr (by omega) rfl rfl

end Sys2Proof.Machine
end

section
/-!
SUPPORT. Control and configuration commands (R100 to R105): what NOP, CONFIG and RESET do, and which steps
change the configuration or CFG_VALID.
-/

namespace Sys2Proof.Machine

open Host.Outcome (next)

/-! ### RESET and NOP (R100, R105) -/

/-- Settles O7: both resets are `State.resetUnit`, and the RESET word is performed in the step of its write. -/
theorem resetCompletes : Obligations.ResetCompletes :=
  ⟨fun _ => ⟨_, rfl, rfl⟩, fun _ hr => busStep_write_reset hr, fun _ => ⟨rfl, rfl⟩⟩

/-- Settles O22: acceptance clears ERR and ERRCODE, NOP sets DONE; the worked example by the weights of the
bits of STATUS. -/
theorem nopCompletes : Obligations.NopCompletes := by
  refine ⟨fun _ => rfl, fun s => ⟨_, rfl, rfl, rfl, rfl, rfl, ?_⟩, by decide, fun s hs => ⟨_, rfl, ?_⟩⟩
  · have haccept : readsAsBefore [.status] s (s.accept (encode .nop)) :=
      readsAsBefore_of_regs fun r hr => readReg_accept s _ fun h => hr (List.mem_singleton.2 h)
    exact readsAsBefore_trans haccept
      (readsAsBefore_exec (i := .nop) nofun rfl (List.Subset.refl _))
  · have hbits : s.statusWord.toNat = 0x58 := congrArg BitVec.toNat hs
    rw [statusWord_toNat] at hbits
    have := Bool.toNat_le s.busy
    have := Bool.toNat_le s.cfgValid
    have := Bool.toNat_le s.done
    have := Bool.toNat_le s.err
    have hkept : s.cfgValid.toNat = 0 ∧ s.ovr.toNat = 0 := by omega
    apply BitVec.eq_of_toNat_eq
    rw [statusWord_toNat]
    simp [State.busy, hkept]

/-! ### The configuration check (R102) -/

section
variable {d : BitVec 4} {h : BitVec 2} {dl : BitVec 7} {ts : Word}

theorem cfgCheck_eq_digits_iff :
    cfgCheck d h dl ts = some .digits ↔ ¬(6 ≤ d.toNat ∧ d.toNat ≤ 9) := by
  unfold cfgCheck Config.digitsMin Config.digitsMax
  split_ifs <;> simp [*]

theorem cfgCheck_eq_dlen_iff :
    cfgCheck d h dl ts = some .dlen ↔ (6 ≤ d.toNat ∧ d.toNat ≤ 9)
      ∧ h = 3#2 ∧ ¬(20 ≤ dl.toNat ∧ dl.toNat ≤ 64) := by
  unfold cfgCheck Config.digitsMin Config.digitsMax Config.digestMinBytes Config.digestMaxBytes
  split_ifs <;> simp_all

theorem cfgCheck_eq_tstep_iff :
    cfgCheck d h dl ts = some .tstep ↔ (6 ≤ d.toNat ∧ d.toNat ≤ 9)
      ∧ (h = 3#2 → 20 ≤ dl.toNat ∧ dl.toNat ≤ 64) ∧ ts = 0#32 := by
  have hts : ts.toNat = 0 ↔ ts = 0#32 := BitVec.toNat_inj (y := 0#32)
  unfold cfgCheck Config.digitsMin Config.digitsMax Config.digestMinBytes Config.digestMaxBytes
  split_ifs <;> simp_all

end

theorem cfgCheck_eq_none_iff (s : State) :
    cfgCheck s.digits s.halg s.dlen s.tstep = none ↔ s.configLegal :=
  ⟨legal_of_cfgCheck, cfgCheck_of_legal⟩

/-! ### CONFIG (R101, R103, R104) -/

theorem exec_config_of_legal {s : State} (h : s.configLegal) :
    exec .config s = next { s with cfgValid := true, done := true, pend := none } := by
  simp only [exec, execConfig, cfgCheck_of_legal h]; rfl

theorem exec_config_of_error {s : State} {e : CmdError}
    (h : cfgCheck s.digits s.halg s.dlen s.tstep = some e) :
    exec .config s
      = next { s with cfgValid := false, err := true, errcode := e.errcode, pend := none } := by
  simp only [exec, execConfig, h]; rfl

/-- Settles O23: each clause of the rule is one outcome of the check. -/
theorem configChecksInOrder : Obligations.ConfigChecksInOrder := by
  refine ⟨by decide, fun s => ⟨exec_config_of_legal, fun hd => ?_, fun hd hl => ?_, fun hd hl ht => ?_⟩⟩
  · exact exec_config_of_error (cfgCheck_eq_digits_iff.2 hd)
  · exact exec_config_of_error (cfgCheck_eq_dlen_iff.2 ⟨hd, hl⟩)
  · exact exec_config_of_error (cfgCheck_eq_tstep_iff.2 ⟨hd, hl, ht⟩)

/-! ### Who changes the configuration (R33, R103) -/

/-- The configuration that CONFIG checks and puts in force (R101): an immutable value, says R103. -/
structure Configuration where
  digits : BitVec 4
  halg   : BitVec 2
  dlen   : BitVec 7
  tstep  : Word
  base   : DWord

/-- The configuration in the registers. -/
def State.configuration (s : State) : Configuration := ⟨s.digits, s.halg, s.dlen, s.tstep, s.base⟩

/-- The registers that hold the configuration. -/
def configRegs : List Reg := [.cfg, .dlen, .tstep, .baseLo, .baseHi]

/-- The next input is one that R103 names as an end of the configuration: an accepted write of one of its
registers, the RESET word, or rst_n low. -/
def State.HostEndsConfig (s : State) : Prop :=
  (∃ r ∈ configRegs, ∃ v, s.busy = false ∧ s.inputs.head? = some (.bus ⟨.write, r.addr, .word, v⟩))
    ∨ s.inputs.head? = some (.bus (cmdTxn (encode .reset)))
    ∨ s.inputs.head? = some (.rst false)

/-- The configuration and its validity are as before. -/
abbrev keepsConfig (s t : State) : Prop :=
  t.configuration = s.configuration ∧ t.cfgValid = s.cfgValid

theorem keepsConfig_storeReg (s : State) {r : Reg} (h : r ∉ configRegs) (v : Word) :
    keepsConfig s (s.storeReg r v) := by
  cases r with
  | cfg | dlen | tstep | baseLo | baseHi => simp [configRegs] at h
  | _ => exact ⟨rfl, rfl⟩

theorem cfgValid_storeReg (s : State) {r : Reg} (h : r ∈ configRegs) (v : Word) :
    (s.storeReg r v).cfgValid = false := by
  simp only [configRegs, List.mem_cons, List.not_mem_nil, or_false] at h
  rcases h with rfl | rfl | rfl | rfl | rfl <;> rfl

theorem exec_configuration {i : Instr} {s t : State} (hi : i ≠ .reset) (h : exec i s = next t) :
    t.configuration = s.configuration := by
  rcases exec_cases h hi with ⟨-, rfl⟩ | ⟨-, -, rfl⟩ | ⟨-, -, e, -, rfl⟩ | ⟨-, -, rfl⟩
    | ⟨-, -, -, rfl⟩ | ⟨-, -, -, rfl⟩ | ⟨-, -, rfl⟩ | ⟨-, rfl⟩ <;> rfl

theorem exec_config_cfgValid {s t : State} (h : exec .config s = next t) :
    t.cfgValid = true ↔ s.configLegal := by
  rw [← cfgCheck_eq_none_iff]
  cases hc : cfgCheck s.digits s.halg s.dlen s.tstep with
  | none => rw [exec_config_of_legal (legal_of_cfgCheck hc)] at h; cases h; simp
  | some e => rw [exec_config_of_error hc] at h; cases h; simp

/-- A transaction keeps the configuration, or it is one that ends it. -/
theorem busStep_configuration {x : Txn} {s t : State} (h : busStep x s = next t) :
    keepsConfig s t
      ∨ (t.cfgValid = false
        ∧ ((∃ r ∈ configRegs, ∃ v, s.busy = false ∧ x = ⟨.write, r.addr, .word, v⟩)
          ∨ x = cmdTxn (encode .reset))) := by
  obtain ⟨-, a, hc⟩ := busStep_cases h
  rcases hc with ⟨v, -, rfl⟩ | ⟨hx, rfl⟩ | ⟨w, -, -, -, rfl⟩ | ⟨r, v, hx, -, hb, rfl⟩
    | ⟨-, -, -, -, rfl⟩ | rfl
  case inr.inl => exact .inr ⟨rfl, .inr hx⟩
  case inr.inr.inr.inl =>
    by_cases hm : r ∈ configRegs
    · exact .inr ⟨cfgValid_storeReg s hm v, .inl ⟨r, hm, v, hb, hx⟩⟩
    · exact .inl (keepsConfig_storeReg s hm v)
  all_goals exact .inl ⟨rfl, rfl⟩

/-- The host's move keeps the configuration, or its input is one that ends it. -/
theorem performInput_configuration {i : Input} {rest : List Input} {s t : State}
    (hin : s.inputs = i :: rest)
    (h : performInput i { s.spendTurn with inputs := rest } = next t) :
    keepsConfig s t ∨ (t.cfgValid = false ∧ s.HostEndsConfig) := by
  have hhead : s.inputs.head? = some i := by rw [hin]; rfl
  rcases performInput_cases h with ⟨x, rfl, hx⟩ | ⟨-, -, -, rfl⟩ | ⟨-, -, -, rfl⟩ | ⟨-, rfl⟩
    | ⟨-, rfl⟩ | ⟨rfl, rfl⟩
  case inl =>
    rcases busStep_configuration hx with hk | ⟨hv, ⟨r, hm, v, hb, rfl⟩ | rfl⟩
    · exact .inl hk
    · exact .inr ⟨hv, .inl ⟨r, hm, v, hb, hhead⟩⟩
    · exact .inr ⟨hv, .inr (.inl hhead)⟩
  case inr.inr.inr.inr.inr => exact .inr ⟨rfl, .inr (.inr hhead)⟩
  all_goals exact .inl ⟨rfl, rfl⟩

/-- What a step does to the configuration: it keeps it, or completes CONFIG, or is a move of the host that
ends it. -/
theorem step_configuration {s t : State} (hn : s.PendingNotReset) (h : step s = next t) :
    keepsConfig s t
      ∨ (s.pend = some (encode .config) ∧ t.configuration = s.configuration
        ∧ (t.cfgValid = true ↔ s.configLegal))
      ∨ (t.cfgValid = false ∧ s.HostEndsConfig) := by
  rcases step_cases h with ⟨-, rfl⟩ | ⟨w, -, hp, he⟩ | ⟨i, rest, -, hin, hi⟩
  · exact .inl ⟨rfl, rfl⟩
  · have hnr : decode w ≠ .reset := decode_ne_reset_of_pend hn hp
    have hsame : t.configuration = s.configuration :=
      exec_configuration (s := s.spendTurn) hnr he
    by_cases hd : decode w = .config
    · have hw : w = encode .config := by rw [← hd, encode_decode]
      rw [hd] at he
      exact .inr (.inl ⟨hw ▸ hp, hsame, exec_config_cfgValid (s := s.spendTurn) he⟩)
    · exact .inl ⟨hsame, (exec_ovr_cfgValid hnr he).2 hd⟩
  · exact (performInput_configuration hin hi).imp_right .inr

/-- The configuration as the host reads it. -/
theorem readReg_of_configuration {s t : State} (h : t.configuration = s.configuration) :
    t.readReg .cfg = s.readReg .cfg ∧ t.readReg .dlen = s.readReg .dlen
      ∧ t.readReg .tstep = s.readReg .tstep ∧ t.base = s.base := by
  obtain ⟨hd, hh, hl, ht, hbase⟩ := Configuration.mk.inj h
  simp only [State.readReg, State.cfgWord, hd, hh, hl, ht, hbase, and_self]

/-- Settles O24: only a move of the host that ends the configuration can change it, and a failing CONFIG
is the one other way to clear CFG_VALID. -/
theorem configurationIsImmutableWhileValid : Obligations.ConfigurationIsImmutableWhileValid := by
  refine ⟨fun s hl => ?_, fun s t hn h hv => ?_⟩
  · have hx := exec_config_of_legal hl
    exact ⟨_, hx, rfl, readsAsBefore_exec (i := .config) nofun hx (List.Subset.refl _)⟩
  rcases step_configuration hn h with ⟨hsame, hkept⟩ | ⟨hp, hsame, hiff⟩ | ⟨hcleared, hends⟩
  · exact ⟨fun _ => readReg_of_configuration hsame,
      fun hf => absurd (hkept.trans hv) (by simp [hf])⟩
  · exact ⟨fun _ => readReg_of_configuration hsame,
      fun hf => .inr (.inl ⟨hp, fun hl => by simp [hiff.2 hl] at hf⟩)⟩
  · exact ⟨fun ht => by simp [hcleared] at ht, fun _ => hends.imp_right .inr⟩

end Sys2Proof.Machine
end

section
/-!
SUPPORT. The constructors (R106): a run of operand writes followed by RUN CONFIG, and what its completion
reports.
-/

namespace Sys2Proof.Machine

open Host.Outcome (next)

/-! ### A run of operand writes (R33, R86) -/

/-- The stores of a list of writes, in order. -/
def State.storeAll (s : State) (l : List (Reg × Word)) : State :=
  l.foldl (fun u p => u.storeReg p.1 p.2) s

/-- The inputs that make these writes. -/
def writes (l : List (Reg × Word)) : List Input := l.map fun p => wr p.1 p.2

theorem storeAll_cons (s : State) (p : Reg × Word) (l : List (Reg × Word)) :
    s.storeAll (p :: l) = (s.storeReg p.1 p.2).storeAll l := rfl

theorem storeReg_withOutside (s : State) (r : Reg) (v : Word) (is : List Input) (ts : List Agent)
    (as : List BusAnswer) :
    (s.withOutside is ts as).storeReg r v = (s.storeReg r v).withOutside is ts as := by
  cases r <;> rfl

theorem storeAll_withOutside (l : List (Reg × Word)) (s : State) (is : List Input) (ts : List Agent)
    (as : List BusAnswer) :
    (s.withOutside is ts as).storeAll l = (s.storeAll l).withOutside is ts as := by
  induction l generalizing s with
  | nil => rfl
  | cons p l ih => rw [storeAll_cons, storeAll_cons, storeReg_withOutside, ih]

theorem storeAll_outside (l : List (Reg × Word)) (s : State) :
    (s.storeAll l).rstN = s.rstN ∧ (s.storeAll l).busy = s.busy := by
  induction l generalizing s with
  | nil => exact ⟨rfl, rfl⟩
  | cons p l ih =>
    obtain ⟨hr, hb⟩ := ih (s.storeReg p.1 p.2)
    exact ⟨hr.trans (rstN_storeReg ..), hb.trans (busy_storeReg ..)⟩

/-- A `WR` of an operand register to an idle unit stores its value; the rest is outside the unit. -/
theorem step_wr_withOutside {s : State} {r : Reg} {v : Word} {rest : List Input} (hr : s.rstN = true)
    (hb : s.busy = false) (ha : r.access = .readWrite) (hi : s.inputs = wr r v :: rest) :
    step s = next ((s.storeReg r v).withOutside rest s.turns (writeAnswer :: s.answers)) := by
  have hstore : State.storeReg r v { s with inputs := rest }
      = (s.storeReg r v).withOutside rest s.turns s.answers := storeReg_withOutside s r v ..
  rw [step_wr hr hb ha hi, hstore]
  rfl

/-- Writes of operand registers to an idle unit are stored one by one. -/
theorem run_writes {l : List (Reg × Word)} {s : State} {rest : List Input}
    (hl : ∀ p ∈ l, p.1.access = .readWrite) (hr : s.rstN = true) (hb : s.busy = false)
    (hi : s.inputs = writes l ++ rest) :
    ∃ as, core.run l.length s = next ((s.storeAll l).withOutside rest s.turns as) := by
  induction l generalizing s with
  | nil => exact ⟨s.answers, by rw [← show s.inputs = rest from hi]; rfl⟩
  | cons p l ih =>
    obtain ⟨hp, hl⟩ := List.forall_mem_cons.1 hl
    have hstep := step_wr_withOutside hr hb hp hi
    obtain ⟨as, hrun⟩ := ih (s := (s.storeReg p.1 p.2).withOutside (writes l ++ rest) s.turns
      (writeAnswer :: s.answers)) hl ((rstN_storeReg ..).trans hr) ((busy_storeReg ..).trans hb) rfl
    rw [storeAll_withOutside] at hrun
    exact ⟨as, (run_succ hstep l.length).trans hrun⟩

/-! ### What CONFIG reports (R101, R195) -/

/-- STATUS tells what the check says of the configuration in the registers. -/
def State.ReportsCheck (t : State) : Prop :=
  (t.done = true ↔ t.configLegal) ∧ t.cfgValid = t.done ∧ (t.err = true ↔ t.done = false)
    ∧ ∀ e : CmdError, t.errcode = e.errcode ↔ cfgCheck t.digits t.halg t.dlen t.tstep = some e

theorem errcode_injective : Function.Injective CmdError.errcode := by
  intro a b; cases a <;> cases b <;> decide

theorem zero_ne_errcode (e : CmdError) : 0#4 ≠ e.errcode := by cases e <;> decide

/-- CONFIG right after its acceptance finds DONE, ERR and ERRCODE clear, so they tell of it alone. -/
theorem reportsCheck_exec_config {s u : State} {w : Word} (h : exec .config (s.accept w) = next u) :
    u.ReportsCheck := by
  unfold State.ReportsCheck
  rw [← cfgCheck_eq_none_iff]
  cases hc : cfgCheck s.digits s.halg s.dlen s.tstep with
  | none =>
    rw [exec_config_of_legal (s := s.accept w) (legal_of_cfgCheck hc)] at h
    cases h
    simp [hc, zero_ne_errcode]
  | some e =>
    rw [exec_config_of_error (s := s.accept w) hc] at h
    cases h
    simp [hc, errcode_injective.eq_iff]

/-- Operand writes and then RUN CONFIG, from an idle unit and on every schedule: the configuration is the
one written, and STATUS tells what the check says of it. -/
theorem run_writes_config {l : List (Reg × Word)} {s : State} {rest : List Input}
    (hl : ∀ p ∈ l, p.1.access = .readWrite) (hr : s.rstN = true) (hb : s.busy = false)
    (hi : s.inputs = writes l ++ (runCmd .config ++ rest)) :
    ∃ k t, core.run k s = next t ∧ t.inputs = rest ∧ t.busy = false
      ∧ t.configuration = (s.storeAll l).configuration ∧ t.ReportsCheck := by
  obtain ⟨as, hwrites⟩ := run_writes hl hr hb hi
  obtain ⟨hr', hb'⟩ := storeAll_outside l s
  obtain ⟨u, hx⟩ := exec_next .config
    (((s.storeAll l).withOutside (runCmd .config ++ rest) s.turns as).accept (encode .config))
  obtain ⟨k, ts, as', -, hrun⟩ := run_runCmd (i := .config)
    (s := (s.storeAll l).withOutside (runCmd .config ++ rest) s.turns as) rfl nofun
    (hr'.trans hr) (hb'.trans hb) rfl hx
  obtain ⟨-, -, -, -, hpu⟩ := exec_outside hx
  have hconfiguration := exec_configuration (i := .config) nofun hx
  have hreports : u.ReportsCheck := reportsCheck_exec_config hx
  exact ⟨l.length + k, _, run_add hwrites hrun, rfl, busy_of_pend hpu, hconfiguration, hreports⟩

/-! ### The two constructors (R106) -/

/-- The write that `SETCFG d, h` makes (R87). -/
def setCfgWrite (d : BitVec 4) (h : BitVec 2) : Reg × Word :=
  (.cfg, (h.setWidth 32 <<< 4) ||| d.setWidth 32)

/-- The writes that `WR64 BASE, v` makes (R87). -/
def baseWrites (v : Int) : List (Reg × Word) :=
  [(.baseLo, lowWord (BitVec.ofInt 64 v)), (.baseHi, highWord (BitVec.ofInt 64 v))]

/-- The writes that the fully parameterised constructor makes. -/
def constructorWrites (d : BitVec 4) (h : BitVec 2) (dl : BitVec 7) (ts : Word) (base : Int) :
    List (Reg × Word) :=
  setCfgWrite d h :: (.dlen, dl.setWidth 32) :: (.tstep, ts) :: baseWrites base

section
variable (s : State)

theorem storeAll_setCfgWrite (d : BitVec 4) (h : BitVec 2) (l : List (Reg × Word)) :
    s.storeAll (setCfgWrite d h :: l)
      = State.storeAll { s with digits := d, halg := h, cfgValid := false } l := by
  obtain ⟨hd, hh⟩ := setCfg_fields d h
  simp only [storeAll_cons, setCfgWrite, State.storeReg, hd, hh]

theorem storeAll_dlen (dl : BitVec 7) (l : List (Reg × Word)) :
    s.storeAll ((.dlen, dl.setWidth 32) :: l)
      = State.storeAll { s with dlen := dl, cfgValid := false } l := by
  have hdl : (dl.setWidth 32).extractLsb' 0 7 = dl := by
    apply BitVec.eq_of_toNat_eq
    rw [BitVec.extractLsb'_toNat, BitVec.toNat_setWidth]
    simp; omega
  simp only [storeAll_cons, State.storeReg, hdl]

theorem configuration_baseWrites (v : Int) :
    (s.storeAll (baseWrites v)).configuration
      = ⟨s.digits, s.halg, s.dlen, s.tstep, BitVec.ofInt 64 v⟩ :=
  congrArg (Configuration.mk s.digits s.halg s.dlen s.tstep) (joinWords_high_low _)

theorem configuration_constructorWrites (d : BitVec 4) (h : BitVec 2) (dl : BitVec 7) (ts : Word)
    (base : Int) :
    (s.storeAll (constructorWrites d h dl ts base)).configuration
      = ⟨d, h, dl, ts, BitVec.ofInt 64 base⟩ := by
  rw [constructorWrites, storeAll_setCfgWrite, storeAll_dlen, storeAll_cons, configuration_baseWrites]
  rfl

end

/-- Settles O48: the writes put the configuration into the registers, and STATUS tells of its check. -/
theorem fullConstructorAcceptsLegalConfigurations :
    Obligations.FullConstructorAcceptsLegalConfigurations := by
  intro d h dl ts base s rest hr hb hi
  have hoperands : ∀ p ∈ constructorWrites d h dl ts base, p.1.access = .readWrite := by
    simp [constructorWrites, setCfgWrite, baseWrites, Reg.access]
  obtain ⟨k, t, hrun, hin, hidle, hc, hdone, hvalid, herr, hcode⟩ :=
    run_writes_config hoperands hr hb hi
  rw [configuration_constructorWrites] at hc
  obtain ⟨rfl, rfl, rfl, rfl, hbase⟩ := Configuration.mk.inj hc
  exact ⟨k, t, hrun, hin, hidle, rfl, rfl, rfl, rfl, hbase, hdone.trans and_assoc.symm, hvalid, herr,
    (hcode .digits).trans cfgCheck_eq_digits_iff, (hcode .dlen).trans cfgCheck_eq_dlen_iff,
    (hcode .tstep).trans cfgCheck_eq_tstep_iff⟩

/-- Either form of `build_config(d)` is a list of writes that leave SHA-1, 30 seconds and epoch base, and
then RUN CONFIG. -/
theorem buildConfig_writes {d : BitVec 4} {s : State} {rest : List Input}
    (hi : s.inputs = buildConfig d ++ rest
      ∨ (s.inputs = buildConfigAfterReset d ++ rest ∧ s.tstep = 30#32 ∧ s.base = 0#64)) :
    ∃ l, (∀ p ∈ l, p.1.access = .readWrite) ∧ s.inputs = writes l ++ (runCmd .config ++ rest)
      ∧ (s.storeAll l).configuration = ⟨d, 0, s.dlen, 30, 0⟩ := by
  rcases hi with hi | ⟨hi, htstep, hbase⟩
  · refine ⟨setCfgWrite d 0 :: (.tstep, 30) :: baseWrites 0, ?_, hi, ?_⟩
    · simp [setCfgWrite, baseWrites, Reg.access]
    · rw [storeAll_setCfgWrite, storeAll_cons, configuration_baseWrites]
      rfl
  · refine ⟨[setCfgWrite d 0], ?_, hi, ?_⟩
    · simp [setCfgWrite, Reg.access]
    · rw [storeAll_setCfgWrite]
      exact congrArg₂ (Configuration.mk d 0 s.dlen) htstep hbase

/-- Settles O47: with SHA-1 and 30 seconds the check turns on DIGITS alone. -/
theorem buildConfigAcceptsSixToNineDigits : Obligations.BuildConfigAcceptsSixToNineDigits := by
  intro d s rest hr hb hi
  obtain ⟨l, hoperands, hi, hwritten⟩ := buildConfig_writes hi
  obtain ⟨k, t, hrun, hin, hidle, hc, hdone, hvalid, herr, hcode⟩ :=
    run_writes_config hoperands hr hb hi
  rw [hwritten] at hc
  obtain ⟨rfl, hhalg, -, htstep, hbase⟩ := Configuration.mk.inj hc
  have hlegal : t.configLegal ↔ 6 ≤ t.digits.toNat ∧ t.digits.toNat ≤ 9 := by
    simp [State.configLegal, hhalg, htstep]
  have hdigits := (hcode .digits).trans cfgCheck_eq_digits_iff
  refine ⟨k, t, hrun, hin, hidle, rfl, hhalg, htstep, hbase, hdone.trans hlegal, ?_, ?_⟩
  · rw [hvalid, hdone, hlegal]
  · rw [herr, ← Bool.not_eq_true, hdone, hlegal]
    exact and_iff_left_of_imp hdigits.2

end Sys2Proof.Machine
end

section
/-!
SUPPORT. HOTP truncation (R122 to R129): what TRUNC writes with a valid configuration, where the bytes it
reads lie, and what its results depend on.
-/

namespace Sys2Proof.Machine

open Host.Outcome (next)

/-! ### The two outcomes of TRUNC (R122, R124) -/

/-- The state with the three results of TRUNC written (R122). -/
def State.truncated (s : State) : State :=
  { s with
    offset := BitVec.ofNat 4 s.truncOffset
    bincode := BitVec.ofNat 31 s.binCode
    code := BitVec.ofNat 30 (s.binCode % 10 ^ s.digits.toNat) }

theorem exec_trunc_of_cfgValid {s : State} (h : s.cfgValid = true) :
    exec .trunc s = next s.truncated.complete :=
  if_pos h

theorem exec_trunc_of_not_cfgValid {s : State} (h : s.cfgValid = false) :
    exec .trunc s = next (s.raiseCmdError .noCfg) :=
  if_neg (ne_true_of_eq_false h)

/-! ### The results as numbers: each register holds its value whole (R127) -/

theorem readReg_truncated_offset (s : State) :
    (s.truncated.complete.readReg .offset).toNat = s.truncOffset := by
  have := truncOffset_le s
  simp only [State.readReg, State.complete, State.truncated, BitVec.toNat_setWidth, BitVec.toNat_ofNat]
  omega

theorem readReg_truncated_bincode (s : State) :
    (s.truncated.complete.readReg .bincode).toNat = s.binCode := by
  have := binCode_lt s
  simp only [State.readReg, State.complete, State.truncated, BitVec.toNat_setWidth, BitVec.toNat_ofNat]
  omega

theorem code_lt_ten_pow_digits (s : State) :
    s.binCode % 10 ^ s.digits.toNat < 10 ^ s.digits.toNat :=
  Nat.mod_lt _ (Nat.pow_pos (by decide))

/-- `CODE` has 30 bits, and 10^9 < 2^30 (R45). -/
theorem readReg_truncated_code {s : State} (h : s.digits.toNat ≤ 9) :
    (s.truncated.complete.readReg .code).toNat = s.binCode % 10 ^ s.digits.toNat := by
  have hpow : 10 ^ s.digits.toNat ≤ 10 ^ 9 := Nat.pow_le_pow_right (by decide) h
  have := code_lt_ten_pow_digits s
  simp only [State.readReg, State.complete, State.truncated, BitVec.toNat_setWidth, BitVec.toNat_ofNat]
  omega

/-! ### The digest length (R42) and the four bytes (R126) -/

theorem digestLen_of_halg (s : State) :
    (s.halg = 0#2 → s.digestLen = 20) ∧ (s.halg = 1#2 → s.digestLen = 32)
      ∧ (s.halg = 2#2 → s.digestLen = 64) ∧ (s.halg = 3#2 → s.digestLen = s.dlen.toNat) := by
  refine ⟨fun h => ?_, fun h => ?_, fun h => ?_, fun h => ?_⟩ <;> simp [State.digestLen, State.dlenEff, h]

theorem digestLen_of_legal {s : State} (h : s.configLegal) : 20 ≤ s.digestLen ∧ s.digestLen ≤ 64 :=
  dlenEff_of_legal h

theorem configLegal_of_inv {s : State} (h : s.Inv) (hv : s.cfgValid = true) : s.configLegal := by
  obtain ⟨-, hcfg, -⟩ := h
  exact hcfg hv

/-- Settles O26: the offset is a nibble, and a legal digest has 20 to 64 bytes. -/
theorem truncWindowStaysInsideTheDigest : Obligations.TruncWindowStaysInsideTheDigest := by
  intro s hi hv
  have hoff := truncOffset_le s
  obtain ⟨hmin, hmax⟩ := digestLen_of_legal (configLegal_of_inv hi hv)
  omega

/-! ### The results of TRUNC (R122, R125, R127) -/

/-- Settles O25: OFFSET, BINCODE and CODE read back as the numbers that the rule computes from the bytes. -/
theorem truncComputesTheCode : Obligations.TruncComputesTheCode := by
  refine ⟨decode_encode (i := .trunc) rfl, fun s hv hl => ?_, fun s => exec_trunc_of_not_cfgValid⟩
  obtain ⟨h0, h1, h2, h3⟩ := digestLen_of_halg s
  obtain ⟨hmin, hmax⟩ := digestLen_of_legal hl
  obtain ⟨-, hdigits, -⟩ := hl
  have hexec := exec_trunc_of_cfgValid hv
  refine ⟨h0, h1, h2, h3, _, hexec, ?_, ?_, ?_, readsAsBefore_exec (i := .trunc) nofun hexec ?_, rfl⟩
  · rw [readReg_truncated_offset, truncOffset_eq hmin hmax]
  · rw [readReg_truncated_bincode, readReg_truncated_offset, binCode_eq]
  · rw [readReg_truncated_code hdigits, readReg_truncated_bincode]
  · simp [commandWrites]

/-- Settles O27: CODE is a remainder, and the top bit of BINCODE is cleared. -/
theorem truncResultsAreInRange : Obligations.TruncResultsAreInRange := by
  intro s hi hv
  obtain ⟨hmin, hmax, -⟩ := configLegal_of_inv hi hv
  refine ⟨_, exec_trunc_of_cfgValid hv, ?_, hmin, hmax, ?_, ?_⟩
  · rw [readReg_truncated_code hmax]
    exact code_lt_ten_pow_digits s
  · rw [readReg_truncated_bincode]
    exact Nat.le_pred_of_lt (binCode_lt s)
  · rw [readReg_truncated_offset]
    exact truncOffset_le s

/-! ### What the results depend on (R128, R129) -/

section
variable {s t : State} (hmin : 20 ≤ s.digestLen) (hmax : s.digestLen ≤ 64)
  (hlen : s.digestLen = t.digestLen) (hbytes : ∀ i < s.digestLen, s.windowByte i = t.windowByte i)
include hmin hmax hlen hbytes

theorem truncOffset_congr : s.truncOffset = t.truncOffset := by
  have hmin' : 20 ≤ t.digestLen := hlen ▸ hmin
  have hmax' : t.digestLen ≤ 64 := hlen ▸ hmax
  rw [truncOffset_eq hmin hmax, truncOffset_eq hmin' hmax', hbytes _ (by omega), hlen]

/-- The four bytes at the offset are bytes of the digest (R126). -/
theorem binCode_congr : s.binCode = t.binCode := by
  have hoff := truncOffset_le s
  rw [binCode_eq, binCode_eq, ← truncOffset_congr hmin hmax hlen hbytes,
    hbytes _ (by omega), hbytes _ (by omega), hbytes _ (by omega), hbytes _ (by omega)]

end

/-- Settles O28: the three results are functions of DIGITS, the offset and the four bytes. -/
theorem truncDependsOnlyOnTheDigestPrefix : Obligations.TruncDependsOnlyOnTheDigestPrefix := by
  intro s t hs _ hvs hvt hdigits hlen hbytes
  obtain ⟨hmin, hmax⟩ := digestLen_of_legal (configLegal_of_inv hs hvs)
  have hoff := truncOffset_congr hmin hmax hlen hbytes
  have hbin := binCode_congr hmin hmax hlen hbytes
  refine ⟨_, _, exec_trunc_of_cfgValid hvs, exec_trunc_of_cfgValid hvt, ?_, ?_, ?_⟩
  · exact congrArg (BitVec.ofNat 4) hoff
  · exact congrArg (BitVec.ofNat 31) hbin
  · exact congrArg (BitVec.ofNat 30) (congrArg₂ (fun b d => b % 10 ^ BitVec.toNat d) hbin hdigits)

end Sys2Proof.Machine
end

section
/-!
SUPPORT. TOTP counter derivation (R140 to R145): the elapsed time and its floor quotient as exact numbers, and
the three outcomes of STEPS.
-/

namespace Sys2Proof.Machine

open Host.Outcome (next)

/-! ### The elapsed time (R142) -/

/-- The difference of two 64-bit two's complement numbers. -/
theorem elapsed_bounds (s : State) : -(2 ^ 64 - 1) ≤ s.elapsed ∧ s.elapsed ≤ 2 ^ 64 - 1 := by
  have := s.now.le_toInt
  have := s.now.toInt_lt
  have := s.base.le_toInt
  have := s.base.toInt_lt
  unfold State.elapsed
  omega

theorem elapsed_nonneg_iff (s : State) : 0 ≤ s.elapsed ↔ s.base.toInt ≤ s.now.toInt := sub_nonneg

/-! ### The floor quotient by a divisor that is not 0 (R9, R144) -/

section
variable {t : Word} (ht : t ≠ 0#32)
include ht

theorem divisor_pos : (0 : Int) < t.toNat := Int.natCast_pos.2 (BitVec.toNat_pos_of_ne_zero ht)

theorem floorDiv_nonneg_iff (e : Int) : 0 ≤ floorDiv e t.toNat ↔ 0 ≤ e := by
  rw [floorDiv_eq ht]
  exact Int.ediv_nonneg_iff_of_pos (divisor_pos ht)

theorem floorDiv_mul_le (e : Int) : floorDiv e t.toNat * t.toNat ≤ e := by
  rw [floorDiv_eq ht]
  exact Int.ediv_mul_le e (divisor_pos ht).ne'

theorem lt_floorDiv_add_one_mul (e : Int) : e < (floorDiv e t.toNat + 1) * t.toNat := by
  rw [floorDiv_eq ht]
  exact Int.lt_ediv_add_one_mul_self e (divisor_pos ht)

theorem floorDiv_le_self {e : Int} (he : 0 ≤ e) : floorDiv e t.toNat ≤ e := by
  rw [floorDiv_eq ht]
  exact Int.ediv_le_self _ he

end

/-- The quotient is negative exactly when NOW is before BASE: with floor division no negative elapsed time
gives 0 (R142). -/
theorem stepQuotient_neg_iff {s : State} (ht : s.tstep ≠ 0#32) :
    floorDiv s.elapsed s.tstep.toNat < 0 ↔ s.now.toInt < s.base.toInt :=
  lt_iff_lt_of_le_iff_le ((floorDiv_nonneg_iff ht _).trans (elapsed_nonneg_iff s))

/-! ### The value written to COUNTER (R143, R144) -/

/-- The value that STEPS writes to COUNTER, `q[63:0]` (R140). -/
def State.stepCount (s : State) : DWord := BitVec.ofInt 64 (floorDiv s.elapsed s.tstep.toNat)

/-- The quotient fits the 64 bits of COUNTER, so the write loses nothing (R144). -/
theorem stepCount_toNat {s : State} (ht : s.tstep ≠ 0#32) (h : s.base.toInt ≤ s.now.toInt) :
    (s.stepCount.toNat : Int) = floorDiv s.elapsed s.tstep.toNat := by
  have helapsed : 0 ≤ s.elapsed := (elapsed_nonneg_iff s).2 h
  have hnonneg := (floorDiv_nonneg_iff ht _).2 helapsed
  have hle := floorDiv_le_self ht helapsed
  obtain ⟨-, hmax⟩ := elapsed_bounds s
  rw [State.stepCount, BitVec.toNat_ofInt]
  omega

theorem counter_setCounter (s : State) (v : DWord) : (s.setCounter v).counter = v := joinWords_high_low v

/-! ### The three outcomes of STEPS (R140, R141) -/

theorem exec_steps_of_not_cfgValid {s : State} (h : s.cfgValid = false) :
    exec .steps s = next (s.raiseCmdError .noCfg) :=
  if_neg (ne_true_of_eq_false h)

section
variable {s : State} (hv : s.cfgValid = true) (ht : s.tstep ≠ 0#32)
include hv ht

theorem exec_steps_of_now_lt_base (h : s.now.toInt < s.base.toInt) :
    exec .steps s = next (s.raiseCmdError .negTime) :=
  (if_pos hv).trans (if_pos ((stepQuotient_neg_iff ht).2 h))

theorem exec_steps_of_base_le_now (h : s.base.toInt ≤ s.now.toInt) :
    exec .steps s = next (s.setCounter s.stepCount).complete :=
  (if_pos hv).trans (if_neg (mt (stepQuotient_neg_iff ht).1 (not_lt.2 h)))

end

/-- Settles O29: COUNTER holds the floor quotient whole, and nothing but STEPS' own registers changes. -/
theorem stepsCountsElapsedSteps : Obligations.StepsCountsElapsedSteps := by
  refine ⟨decode_encode (i := .steps) rfl, fun s => exec_steps_of_not_cfgValid,
    fun s => exec_steps_of_now_lt_base, fun s hv ht h => ?_⟩
  have hexec := exec_steps_of_base_le_now hv ht h
  have hcounter : (s.setCounter s.stepCount).complete.counter = s.stepCount := counter_setCounter s _
  refine ⟨_, hexec, ?_, ?_, ?_, ?_, msgOut_eq_counter _,
    readsAsBefore_exec (i := .steps) nofun hexec ?_, rfl⟩
  · rw [hcounter, stepCount_toNat ht h]
    exact floorDiv_mul_le ht s.elapsed
  · rw [hcounter, stepCount_toNat ht h]
    exact lt_floorDiv_add_one_mul ht s.elapsed
  · rw [hcounter]
    exact msg0_eq_counterHi _
  · rw [hcounter]
    exact msg1_eq_counterLo _
  · simp [commandWrites]

/-- Settles O30: the invariant has a valid configuration pass the check of CONFIG, which rejects TSTEP = 0. -/
theorem stepsNeedsAConfiguration : Obligations.StepsNeedsAConfiguration := by
  refine ⟨fun s => exec_steps_of_not_cfgValid, fun s hi hv => ?_⟩
  obtain ⟨-, -, -, htstep⟩ := configLegal_of_inv hi hv
  exact htstep

/-- Settles O31: a floor quotient by a positive number has the sign of the dividend. -/
theorem stepsRejectsTimeBeforeBase : Obligations.StepsRejectsTimeBeforeBase := by
  intro s hv ht
  obtain ⟨hmin, hmax⟩ := elapsed_bounds s
  exact ⟨hmin, hmax, rfl, stepQuotient_neg_iff ht, exec_steps_of_now_lt_base hv ht⟩

end Sys2Proof.Machine
end

section
/-!
SUPPORT. Errors and the quiet unit (R160, R162, R163, R165, R170, R174, R194): what a command that ends with an
error leaves, which error is the one reported, and the steps in which no register changes.
-/

namespace Sys2Proof.Machine

open Host.Outcome (next)

/-! ### Precise errors (R160, R162, R165) -/

/-- The codes of R160 are 1 to 6. -/
theorem errcode_bounds (e : CmdError) : 1 ≤ e.errcode.toNat ∧ e.errcode.toNat ≤ 6 := by
  cases e <;> decide

/-- A command that turns ERR on has raised one error and done nothing else, except that CONFIG has cleared
CFG_VALID first (R104). -/
theorem exec_raises {i : Instr} {s t : State} (hs : s.err = false) (h : exec i s = next t)
    (ht : t.err = true) :
    ∃ e, t = State.raiseCmdError e
      { s with cfgValid := if i = .config then false else s.cfgValid } := by
  have hno {p : Prop} (hkept : t.err = false) : p := absurd (hkept.symm.trans ht) (by decide)
  by_cases hi : i = .reset
  · subst hi; cases h; exact hno rfl
  rcases exec_cases h hi with ⟨-, rfl⟩ | ⟨-, -, rfl⟩ | ⟨rfl, -, e, -, rfl⟩ | ⟨-, -, rfl⟩
    | ⟨-, -, -, rfl⟩ | ⟨rfl, -, -, rfl⟩ | ⟨rfl | rfl, -, rfl⟩ | ⟨⟨op, rsv, rfl⟩, rfl⟩
  case inr.inr.inl => exact ⟨e, rfl⟩
  case inr.inr.inr.inr.inr.inl => exact ⟨.negTime, rfl⟩
  case inr.inr.inr.inr.inr.inr.inl.inl => exact ⟨.noCfg, rfl⟩
  case inr.inr.inr.inr.inr.inr.inl.inr => exact ⟨.noCfg, rfl⟩
  case inr.inr.inr.inr.inr.inr.inr => exact ⟨.badCmd, rfl⟩
  all_goals exact hno hs

/-- Settles O34: an error is one `raiseCmdError`, and its code is one of R160. -/
theorem errorsArePrecise : Obligations.ErrorsArePrecise := by
  intro i s t hs h ht
  obtain ⟨e, rfl⟩ := exec_raises hs h ht
  exact ⟨rfl, errcode_bounds e⟩

/-! ### The order of errors (R163) -/

/-- The sequencer's move on a pending command (R196). -/
theorem sequencerStep_of_pend {s : State} {w : Word} (hp : s.pend = some w) :
    sequencerStep s = exec (decode w) s := by
  simp only [sequencerStep, hp]

/-- Settles O35: each command has its errors by its own conditions; CONFIG's code names the first check that
fails. -/
theorem errorPriority : Obligations.ErrorPriority := by
  intro s hs
  refine ⟨fun w op rsv hp hd => ?_, fun hv => ⟨?_, ?_⟩, fun hv ht hneg => ?_, ?_⟩
  · exact ⟨s.raiseCmdError .badCmd, by rw [sequencerStep_of_pend hp, hd]; rfl, rfl⟩
  · exact ⟨_, exec_trunc_of_not_cfgValid hv, rfl⟩
  · exact ⟨_, exec_steps_of_not_cfgValid hv, rfl⟩
  · exact ⟨_, exec_steps_of_now_lt_base hv ht hneg, rfl⟩
  · cases hc : cfgCheck s.digits s.halg s.dlen s.tstep with
    | none =>
      exact ⟨_, exec_config_of_legal (legal_of_cfgCheck hc),
        fun ht => absurd (hs.symm.trans ht) (by decide)⟩
    | some e =>
      have hcode (e' : CmdError) : e.errcode = e'.errcode
          ↔ cfgCheck s.digits s.halg s.dlen s.tstep = some e' := by
        rw [hc, errcode_injective.eq_iff, Option.some_inj]
      refine ⟨_, exec_config_of_error hc, fun _ => ⟨(hcode .digits).trans cfgCheck_eq_digits_iff,
        (hcode .dlen).trans cfgCheck_eq_dlen_iff, ?_⟩⟩
      rw [not_and_not_right]
      exact (hcode .tstep).trans cfgCheck_eq_tstep_iff

/-! ### Steps that change no register (R170, R174, R194) -/

/-- Every offset of the window, PEND and msg_out are as before. -/
abbrev keepsRegisters (s t : State) : Prop :=
  readsAsBefore [] s t ∧ t.pend = s.pend ∧ t.msgOut = s.msgOut

/-- The cycle count, the level of rst_n and what is outside the unit are not read through the window. -/
theorem keepsRegisters_withPins (s : State) (c : Nat) (b : Bool) (is : List Input) (ts : List Agent)
    (as : List BusAnswer) :
    keepsRegisters s { s with cycles := c, rstN := b, inputs := is, turns := ts, answers := as } :=
  ⟨readsAsBefore_of_regs fun r _ => by cases r <;> rfl, rfl, rfl⟩

/-- A transaction that is no word write only gives its answer. -/
theorem busStep_of_not_write {x : Txn} {s t : State} (h : busStep x s = next t)
    (hx : ∀ a v, x ≠ ⟨.write, a, .word, v⟩) : ∃ a, t = s.answer a := by
  obtain ⟨-, a, hc⟩ := busStep_cases h
  rcases hc with ⟨v, he, -⟩ | ⟨he, -⟩ | ⟨w, he, -⟩ | ⟨r, v, he, -⟩ | ⟨b, v, he, -⟩ | ht
  case inr.inr.inr.inr.inr => exact ⟨a, ht⟩
  all_goals exact absurd he (hx _ _)

/-- The host's move changes a register only by a word write or by rst_n going low. -/
theorem performInput_keepsRegisters {i : Input} {rest : List Input} {s t : State}
    (h : performInput i { s.spendTurn with inputs := rest } = next t)
    (hwrite : ∀ a v, i ≠ .bus ⟨.write, a, .word, v⟩) (hlow : i ≠ .rst false) :
    keepsRegisters s t := by
  rcases performInput_cases h with ⟨x, rfl, hx⟩ | ⟨-, -, -, rfl⟩ | ⟨-, -, -, rfl⟩ | ⟨-, rfl⟩
    | ⟨-, rfl⟩ | ⟨hi, -⟩
  case inl =>
    obtain ⟨a, rfl⟩ := busStep_of_not_write hx fun a v he => hwrite a v (congrArg Input.bus he)
    exact keepsRegisters_withPins s _ _ _ _ _
  case inr.inr.inr.inr.inr => exact absurd hi hlow
  all_goals exact keepsRegisters_withPins s _ _ _ _ _

/-- A step that is no completion changes a register only by such a move of the host. -/
theorem step_keepsRegisters {s t : State} (h : step s = next t) (hm : s.mover ≠ some .sequencer)
    (hwrite : ∀ a v, s.inputs.head? ≠ some (.bus ⟨.write, a, .word, v⟩))
    (hlow : s.inputs.head? ≠ some (.rst false)) : keepsRegisters s t := by
  rcases step_cases h with ⟨-, rfl⟩ | ⟨w, hseq, -, -⟩ | ⟨i, rest, -, hin, hi⟩
  · exact ⟨fun _ _ => rfl, rfl, rfl⟩
  · exact absurd hseq hm
  · have hhead : s.inputs.head? = some i := by rw [hin]; rfl
    rw [hhead] at hlow hwrite
    exact performInput_keepsRegisters hi (fun a v he => hwrite a v (congrArg some he))
      fun he => hlow (congrArg some he)

theorem mover_eq_none {s : State} (hi : s.inputs = []) (hb : s.busy = false) : s.mover = none := by
  simp [State.mover, State.contested, State.sequencerEnabled, hi, hb]

/-- The host moves where the sequencer has no step, and where the next choice is the host's. -/
theorem mover_eq_host {s : State} {i : Input} {rest : List Input} (hi : s.inputs = i :: rest)
    (h : s.busy = false ∨ s.turns.headD .sequencer = .host) : s.mover = some .host := by
  cases hen : s.sequencerEnabled with
  | false => simp [State.mover, State.contested, hen, hi]
  | true =>
    have hb : s.busy = true := (Bool.and_eq_true_iff.1 hen).2
    have hturn : s.turns.headD .sequencer = .host := h.resolve_left (by simp [hb])
    simp only [State.mover, State.contested, hen, hi, hturn, List.isEmpty_cons, Bool.not_false,
      Bool.and_self, if_true]

theorem step_of_host {s : State} {i : Input} {rest : List Input} (hm : s.mover = some .host)
    (hi : s.inputs = i :: rest) : step s = performInput i { s.spendTurn with inputs := rest } := by
  simp only [step, hm, hostStep, spendTurn_inputs, hi]

/-- Settles O38: a step that is neither a completion nor one of the two inputs that change registers keeps
them all, and clk and rst_n high are such inputs. -/
theorem idleUnitKeepsItsState : Obligations.IdleUnitKeepsItsState := by
  refine ⟨fun s hi hb => ?_, fun s i rest hclk hi hturn => ?_, fun s t => step_keepsRegisters⟩
  · simp only [step, mover_eq_none hi hb]
  · have hstep := step_of_host (mover_eq_host hi hturn) hi
    rcases hclk with rfl | rfl <;> exact ⟨_, hstep, rfl, keepsRegisters_withPins s _ _ _ _ _⟩

end Sys2Proof.Machine
end

section
/-!
SUPPORT. Reset and the two agents (R73, R190, R191, R194 to R196, R205): where a step runs a command, what holds
while one is pending, that every pending command ends, and the unit while rst_n is low.
-/

namespace Sys2Proof.Machine

open Host.Outcome (next refused)

/-! ### Acceptance (R195) -/

/-- Settles O15: the word is accepted by an idle unit and dropped by a busy one. -/
theorem commandAcceptance : Obligations.CommandAcceptance := fun _ _ hr hw =>
  ⟨fun hb => ⟨_, busStep_write_cmd_idle hr hb hw, rfl⟩, fun hb => busStep_write_cmd_busy hr hb hw⟩

/-! ### The step that runs a command (R191, R196) -/

/-- A word that is not RESET's is placed as an accepted command with the sequencer's turn (log 2). -/
theorem loadCommand_of_ne_reset (s : State) {w : Word} (hw : w ≠ encode .reset) :
    s.loadCommand w
      = { s.accept w with
          rstN := true
          turns := if s.inputs.isEmpty then s.turns else .sequencer :: s.turns } :=
  if_neg hw

/-- A command placed as the next one to run is completed by the next step. -/
theorem step_loadCommand (s : State) {w : Word} (hw : w ≠ encode .reset) :
    step (s.loadCommand w) = exec (decode w) (s.loadCommand w).spendTurn := by
  rw [loadCommand_of_ne_reset s hw]
  refine step_sequencer rfl rfl ?_
  cases hi : s.inputs with
  | nil => exact .inl hi
  | cons i rest => exact .inr rfl

/-- The host's write of the RESET word, at its turn, is the reset (R191). -/
theorem step_reset_write {s : State} {rest : List Input} (hr : s.rstN = true)
    (hi : s.inputs = .bus (cmdTxn 0x0000000F#32) :: rest)
    (h : s.busy = false ∨ s.turns.headD .sequencer = .host) :
    step s = next ((State.resetUnit { s.spendTurn with inputs := rest }).answer writeAnswer) :=
  (step_of_host (mover_eq_host hi h) hi).trans (busStep_write_reset hr)

/-- Settles O36: the sequencer's step is the completion, the host's write of the RESET word the reset. -/
theorem stepRunsTheDecodedCommand : Obligations.StepRunsTheDecodedCommand :=
  ⟨fun _ _ => step_sequencer, fun _ _ => step_reset_write, fun s _ _ => step_loadCommand s⟩

/-- A completion has a next state, and it touches nothing outside the unit but the choice it uses up. -/
theorem step_of_sequencer {s : State} (hm : s.mover = some .sequencer) :
    ∃ t, step s = next t ∧ t.pend = none ∧ t.inputs = s.inputs ∧ t.answers = s.answers
      ∧ t.turns = s.spendTurn.turns := by
  obtain ⟨-, w, hp⟩ := pending_of_mover hm
  obtain ⟨t, hx⟩ := exec_next (decode w) s.spendTurn
  obtain ⟨hin, hturns, hans, -, hpend⟩ := exec_outside hx
  have hstep : step s = exec (decode w) s.spendTurn := by
    simp only [step, hm]
    exact sequencerStep_of_pend (s := s.spendTurn) hp
  exact ⟨t, hstep.trans hx, hpend, hin, hans, hturns⟩

/-- Settles O37: the sequencer's step is one command, and a command empties PEND. -/
theorem completionIsOneStep : Obligations.CompletionIsOneStep := fun _ => step_of_sequencer

/-! ### While a command is pending (R124, R194, R195) -/

/-- A busy unit with what the host and clk can change of it: OVR, the cycle count, the pin, and what is
outside the unit. -/
def State.withBusyChanges (s : State) (o : Bool) (c : Nat) (b : Bool) (is : List Input)
    (ts : List Agent) (as : List BusAnswer) : State :=
  { s with ovr := o, cycles := c, rstN := b, inputs := is, turns := ts, answers := as }

theorem readsAsBefore_withBusyChanges (s : State) (o : Bool) (c : Nat) (b : Bool) (is : List Input)
    (ts : List Agent) (as : List BusAnswer) :
    readsAsBefore [.status] s (s.withBusyChanges o c b is ts as) := by
  refine readsAsBefore_of_regs fun r hr => ?_
  cases r with
  | status => exact absurd (List.mem_singleton.2 rfl) hr
  | _ => rfl

/-- A transaction with a busy unit ends its command, as RESET, or changes OVR at most (R65). -/
theorem busStep_busy {x : Txn} {s t : State} (hb : s.busy = true) (h : busStep x s = next t) :
    t.busy = false ∨ ∃ o as, t = s.withBusyChanges o s.cycles s.rstN s.inputs s.turns as := by
  obtain ⟨-, a, hc⟩ := busStep_cases h
  rcases hc with ⟨v, -, rfl⟩ | ⟨-, rfl⟩ | ⟨w, -, -, hidle, -⟩ | ⟨r, v, -, -, hidle, -⟩
    | ⟨-, -, -, -, rfl⟩ | rfl
  · exact .inr ⟨_, _, rfl⟩
  · exact .inl rfl
  · simp [hb] at hidle
  · simp [hb] at hidle
  · exact .inr ⟨_, _, rfl⟩
  · exact .inr ⟨_, _, rfl⟩

/-- The same for every input; the pin stays high where it is high. -/
theorem performInput_busy {i : Input} {s t : State} (hb : s.busy = true)
    (h : performInput i s = next t) :
    t.busy = false ∨ ∃ o c b is as,
      (s.rstN = true → b = true) ∧ t = s.withBusyChanges o c b is s.turns as := by
  rcases performInput_cases h with ⟨x, -, hx⟩ | ⟨-, -, -, rfl⟩ | ⟨-, -, hidle, -⟩ | ⟨-, rfl⟩
    | ⟨-, rfl⟩ | ⟨-, rfl⟩
  · exact (busStep_busy hb hx).imp_right fun ⟨o, as, ht⟩ => ⟨o, _, _, _, as, id, ht⟩
  · exact .inr ⟨_, _, _, _, _, id, rfl⟩
  · simp [hb] at hidle
  · exact .inr ⟨_, _, _, _, _, id, rfl⟩
  · exact .inr ⟨_, _, _, _, _, fun _ => rfl, rfl⟩
  · exact .inl rfl

/-- A step of a busy unit ends its command or makes such changes only. -/
theorem step_busy {s t : State} (hb : s.busy = true) (h : step s = next t) :
    t.busy = false ∨ ∃ o c b is ts as, t = s.withBusyChanges o c b is ts as := by
  rcases step_cases h with ⟨-, rfl⟩ | ⟨w, -, -, hx⟩ | ⟨i, rest, -, -, hi⟩
  · exact .inr ⟨_, _, _, _, _, _, rfl⟩
  · obtain ⟨-, -, -, -, hpend⟩ := exec_outside hx
    exact .inl (busy_of_pend hpend)
  · exact (performInput_busy (s := { s.spendTurn with inputs := rest }) hb hi).imp_right
      fun ⟨o, c, b, is, as, _, ht⟩ => ⟨o, c, b, is, _, as, ht⟩

/-- Settles O16: a step that leaves the command pending changes no field that the statement reads. -/
theorem operandsHeldWhilePending : Obligations.OperandsHeldWhilePending := by
  intro s t hb h ht
  rcases step_busy hb h with hidle | ⟨o, c, b, is, ts, as, rfl⟩
  · simp [ht] at hidle
  · exact ⟨rfl, readsAsBefore_withBusyChanges s o c b is ts as, rfl, rfl, rfl, rfl⟩

/-! ### Every pending command ends (R196, R205) -/

/-- Out of reset every transaction is admitted. -/
theorem busStep_next (x : Txn) {s : State} (hr : s.rstN = true) : ∃ t, busStep x s = next t := by
  by_cases hl : x.size = .word ∧ x.addr.toNat % 4 = 0
  · obtain ⟨k, a, z, v⟩ := x
    obtain ⟨rfl, ha⟩ := hl
    cases k with
    | read => exact ⟨_, busStep_read hr a v ha⟩
    | write =>
      obtain ⟨t, ht⟩ := legalWrite_next a v s
      exact ⟨_, busStep_of_legalWrite hr ha ht⟩
  · exact ⟨_, busStep_illegal hr hl⟩

/-- Out of reset every input can be performed. -/
theorem performInput_next (i : Input) {s : State} (hr : s.rstN = true) :
    ∃ t, performInput i s = next t := by
  cases i with
  | bus x => exact busStep_next x hr
  | wait => exact ⟨_, performInput_wait hr⟩
  | clk => exact ⟨_, rfl⟩
  | rst level => exact ⟨_, rfl⟩

/-- Who moves on a busy unit: the sequencer, or the host with an input and a choice left (log 1). -/
theorem sequencer_or_host_turn (s : State) :
    (s.inputs = [] ∨ s.turns.headD .sequencer = .sequencer)
      ∨ ∃ i rest ts, s.inputs = i :: rest ∧ s.turns = .host :: ts := by
  cases s.inputs with
  | nil => exact .inl (.inl rfl)
  | cons i rest =>
    cases s.turns with
    | nil => exact .inl (.inr rfl)
    | cons a ts =>
      cases a with
      | sequencer => exact .inl (.inr rfl)
      | host => exact .inr ⟨i, rest, ts, rfl, rfl⟩

/-- A step of a busy unit ends its command, or is a move of the host that uses up a choice. -/
theorem step_ends_or_spends {s : State} (hr : s.rstN = true) (hb : s.busy = true) :
    ∃ t, step s = next t
      ∧ (t.busy = false ∨ t.rstN = true ∧ t.busy = true ∧ t.turns.length < s.turns.length) := by
  rcases sequencer_or_host_turn s with h | ⟨i, rest, ts, hi, hts⟩
  · obtain ⟨t, hstep, hpend, -⟩ := step_of_sequencer (mover_sequencer hr hb h)
    exact ⟨t, hstep, .inl (busy_of_pend hpend)⟩
  · obtain ⟨t, hx⟩ := performInput_next i (s := s.withOutside rest ts s.answers) hr
    have hshorter : ts.length < s.turns.length := by simp [hts]
    refine ⟨t, (step_busy_host hr hb hi hts).trans hx, ?_⟩
    rcases performInput_busy (s := s.withOutside rest ts s.answers) hb hx
      with hidle | ⟨o, c, b, is, as, hpin, rfl⟩
    · exact .inl hidle
    · exact .inr ⟨hpin hr, hb, hshorter⟩

/-- By induction on the number of choices left: the host can move first at most that often. -/
theorem run_ends_pending {s : State} (hr : s.rstN = true) (hb : s.busy = true) :
    ∃ k t, k ≤ s.turns.length + 1 ∧ core.run k s = next t ∧ t.busy = false := by
  induction hn : s.turns.length using Nat.strong_induction_on generalizing s with
  | _ n ih =>
    obtain ⟨u, hstep, hidle | ⟨hru, hbu, hlt⟩⟩ := step_ends_or_spends hr hb
    · exact ⟨1, u, by omega, run_succ hstep 0, hidle⟩
    · obtain ⟨k, t, hk, hrun, hidle⟩ := ih _ (hn ▸ hlt) hru hbu rfl
      exact ⟨k + 1, t, by omega, (run_succ hstep k).trans hrun, hidle⟩

/-- Settles O43: a run of at most one step for each choice left, and one more. -/
theorem everyAcceptedCommandEnds : Obligations.EveryAcceptedCommandEnds := fun _ => run_ends_pending

/-! ### While rst_n is low (R190) -/

theorem busStep_in_reset (x : Txn) {s : State} (hr : s.rstN = false) :
    busStep x s = refused .busDuringReset :=
  if_pos hr

theorem msgOut_resetUnit (s : State) : s.resetUnit.msgOut = 0#64 :=
  (msgOut_eq_counter _).trans (show joinWords 0 0 = 0#64 by decide)

/-- Settles O39: by the invariant the state after the step is its own reset. -/
theorem resetPinHoldsTheUnit : Obligations.ResetPinHoldsTheUnit := by
  refine ⟨fun s x => busStep_in_reset x, fun s t hinv h hr => ?_⟩
  obtain ⟨-, -, -, -, hheld⟩ := stepKeepsTheInvariant s t hinv h
  rw [hheld hr]
  exact ⟨readOffset_resetUnit t, rfl, msgOut_resetUnit t⟩

end Sys2Proof.Machine
end
